-- ==== Sys2Proof/Word.lean ====
section
/-! DEFINITION. Words and sparse tables: the plain types every file of the model uses. -/

namespace Sys2Proof

/-- A 64-bit register or address value (R10, R23). -/
abbrev Word := BitVec 64
/-- One byte of memory (R4). -/
abbrev Byte := BitVec 8
/-- A 5-bit field that names a general register x0 to x31 (R40). -/
abbrev Reg := BitVec 5

/-- A table from numbers to values in one canonical form: keys strictly rising, and no entry equal
to the value an unlisted key reads as. Memory is the table of bytes; a register file is one too. [log 1: DESIGN CHOICE] -/
abbrev Table (α : Type) := List (Nat × α)

/-- The keys rise strictly and every key lies above `k`, and no entry holds the default. -/
def Table.wfAbove {α : Type} [Inhabited α] [DecidableEq α] (k : Option Nat) : Table α → Bool
  | [] => true
  | (i, a) :: t =>
    (match k with
      | none => true
      | some j => decide (j < i)) && decide (a ≠ default) && Table.wfAbove (some i) t

/-- The canonical form of a table. [log 1: DESIGN CHOICE] -/
def Table.wf {α : Type} [Inhabited α] [DecidableEq α] (t : Table α) : Bool := Table.wfAbove none t

/-- The value at key `k`; an unlisted key reads as the default. -/
def Table.get {α : Type} [Inhabited α] : Table α → Nat → α
  | [], _ => default
  | (i, a) :: t, k => if k = i then a else Table.get t k

/-- The table without the entry of key `k`. -/
def Table.remove {α : Type} : Table α → Nat → Table α
  | [], _ => []
  | (i, a) :: t, k => if k = i then Table.remove t k else (i, a) :: Table.remove t k

/-- The table with an entry placed before the first greater key. -/
def Table.place {α : Type} : Table α → Nat → α → Table α
  | [], k, v => [(k, v)]
  | (i, a) :: t, k, v => if k < i then (k, v) :: (i, a) :: t else (i, a) :: Table.place t k v

/-- Write `v` at key `k`; writing the default removes the entry, so the form stays canonical. [log 1: DESIGN CHOICE] -/
def Table.set {α : Type} [Inhabited α] [DecidableEq α] (t : Table α) (k : Nat) (v : α) : Table α :=
  if v = default then t.remove k else (t.remove k).place k v

/-- Change the value at key `k` by a function. -/
def Table.modify {α : Type} [Inhabited α] [DecidableEq α] (t : Table α) (k : Nat) (f : α → α) :
    Table α :=
  t.set k (f (t.get k))

end Sys2Proof
end

