-- ==== Sys2Proof/Config.lean ====
section
/-! DEFINITION. What the spec leaves open and the machine goes on with: constants without a body, so
that nothing in Lean can evaluate them or prove a value of them. Each is applied to the counter
`draws` of the state, or to the operands it depends on. -/

namespace Sys2Proof.Config

/-- A free choice: which of several outcomes that the spec allows comes about (R37, R141, R221,
R227, R285). Applied to the number of the draw. -/
opaque choice : Nat → Nat

/-- A free choice for each part of one engine operation (R221, R227, R285). Applied to the number of
the draw and to the part. -/
opaque choiceAt : Nat → Nat → Nat

/-- Nanoseconds of TIME that pass in a step (R32, R101): the spec fixes no instruction count per
nanosecond. Applied to the number of the step. [log 10: DESIGN CHOICE] -/
opaque nanoseconds : Nat → Nat

/-- Core cycles that pass in a step (R28, R101, R451). Applied to the number of the step. [log 10: DESIGN CHOICE] -/
opaque cycles : Nat → Nat

/-- The grandmaster's time at a synchronisation (R32, R412). Applied to the number of the draw. [log 52: DESIGN CHOICE] -/
opaque grandmaster : Nat → BitVec 64

/-- The firmware configuration names a discipline source for TIME (R32, R392). [log 52: DESIGN CHOICE] -/
opaque disciplined : Bool

/-- The 16-byte block that a controller returns when it decrypts under a key other than the one the
block was written with (R212): key written with, key read with, block address, stored block. [log 16: DESIGN CHOICE] -/
opaque decrypted : BitVec 6 → BitVec 6 → Nat → BitVec 128 → BitVec 128

/-- The cause, 0 for none, that the boot ROM and the firmware's training find (R449). Applied to the
number of the draw. [log 61: DESIGN CHOICE] -/
opaque bootCause : Nat → BitVec 8

/-- The clusters that fail the self-test (R449), one bit for each cluster of the device. [log 61: DESIGN CHOICE] -/
opaque selfTest : Nat → BitVec 160

/-- The firmware image's version, the boot ROM's version and the discipline source (R392). [log 59: DESIGN CHOICE] -/
opaque manifestValue : BitVec 16 → BitVec 16 → BitVec 64

/-- The record quota of a partition at a switch (R423), of which the spec states no size. [log 53: DESIGN CHOICE] -/
opaque recordQuota : BitVec 6 → Nat

/-- The division of a log area (R438): the part of it, in units of 64 KiB, that a partition's stream of a
unit has. [log 58: DESIGN CHOICE] -/
opaque streamUnits : BitVec 6 → Nat → Nat

/-- Which of the mesh ports that a shortest path can end in takes a core's request to an L2 slice (R209,
R380); the spec states no route on the mesh. Applied to the core and the slice. [log 74: DESIGN CHOICE] -/
opaque meshPort : BitVec 18 → Nat → Nat

/-- A byte of local memory that lies, or lay, in a stash region (R205): the spec does not place the stash's
lines within it. Applied to the number of the run and to the byte's key. [log 19: DESIGN CHOICE] -/
opaque stashByte : Nat → Nat → BitVec 8

/-- A byte of a stash region's own local memory while the stash's lines stand in it (R205). Applied to the number of
the step and to the byte's key. [log 19: DESIGN CHOICE] -/
opaque stashDataByte : Nat → Nat → BitVec 8

/-- The set of the translation cache that a page falls into, of 128 (R221). [log 15: DEDUCED] -/
opaque tlbSet : Nat → Nat

/-- Which value of a granule of local memory a load sees while engine operations that write it run (R227).
Applied to the number of the step and to the granule. [log 26: DESIGN CHOICE] -/
opaque seenGranule : Nat → Nat → Nat

/-- A region of another device is neither SHARED nor owned by a partition (R358): its owner table stands in
that device's controllers. Applied to the number of the step, the device, the region and the partition. [log 78: DESIGN CHOICE] -/
opaque farRegion : Nat → Nat → Nat → BitVec 6 → Bool

/-- A core of another device is fenced (R225). Applied to the number of the step and to the core. [log 78: DESIGN CHOICE] -/
opaque farFenced : Nat → BitVec 18 → Bool

/-- What VCVT reads as e3 on a Sedge processor (R191, R413), which has none (R421). Applied to the number of
the step. [log 79: DESIGN CHOICE] -/
opaque sedgeE3 : Nat → BitVec 64

/-- What VCVT reads as a generator register on a Sedge processor (R191, R413), which has none (R421). Applied
to the number of the step and to the register. [log 79: DESIGN CHOICE] -/
opaque sedgeG : Nat → Nat → BitVec 256

/-- The step at which another core starts the exchange of a base (R313, R344). Applied to the step at which the
own slot was defined, the slot, the core and the base. [log 30: DESIGN CHOICE] -/
opaque exchangeStart : Nat → Nat → BitVec 18 → BitVec 32 → Nat

/-- The hash that the manifest gives of a loaded switch kernel (R392). Applied to its words. [log 59: DESIGN CHOICE] -/
opaque kernelHash : List (BitVec 32) → BitVec 64

end Sys2Proof.Config
end

