-- ==== Sys2Proof/Syntax.lean ====
section
/-! DEFINITION. The instructions and events of the VL-48: one constructor for each row of the opcode
table (spec/opcode_table.json), and the data the event rows carry. An encoded row's operands are the
fields of its word (R40, R43); an event row's operands are what the outside supplies. -/

namespace Sys2Proof

/-- The six payload words of a message (R138). -/
structure Payload where
  p0 : Word
  p1 : Word
  p2 : Word
  p3 : Word
  p4 : Word
  p5 : Word
  deriving DecidableEq, Repr, Inhabited

/-- A 64-byte message: two header doublewords and the payload (R138). -/
structure Message where
  hdr0 : Word
  hdr1 : Word
  body : Payload
  deriving DecidableEq, Repr, Inhabited

/-- Where a message that reaches the core's port comes from (R140, R153): the core's own queue q3,
or another sender, for a partition (R363), perhaps as a spawn. -/
inductive MsgSource where
  | own
  | other (m : Message) (spawn : Bool) (part : BitVec 6)
  deriving DecidableEq, Repr

/-- A remote decrement (R151, R170), for a partition (R363). -/
structure Decrement where
  n : BitVec 12
  status : BitVec 16
  part : BitVec 6
  deriving DecidableEq, Repr, Inhabited

/-- One 128-byte line: the home device and the line address PA[43:7] (R208). -/
structure LineId where
  dev : BitVec 8
  line : BitVec 37
  deriving DecidableEq, Repr, Inhabited

/-- A holder of a copy that a directory entry records (R210): the stash of a core, or the peer-copy
slice of a die, named by device :: die. -/
inductive Sharer where
  | stash (core : BitVec 18)
  | peer (die : BitVec 10)
  deriving DecidableEq, Repr

/-- An invalidation of a line (R210), for the partition that PART names (R399). -/
structure Invalidation where
  line : LineId
  part : BitVec 6 := 0
  deriving DecidableEq, Repr

/-- A request for a line (R210, R211): who is to hold the copy, the key id of the page (R212) and the partition of
the requester (R399). -/
structure FillRequest where
  holder : Sharer
  key : BitVec 6 := 0
  part : BitVec 6 := 0
  deriving DecidableEq, Repr

/-- A word of a line that a core's writer slot holds (R232), and whether a STREL's grant alone holds it
(R257). -/
structure HeldWord where
  word : BitVec 4
  holder : BitVec 18
  release : Bool
  deriving DecidableEq, Repr, Inhabited

/-- What a line reply carries (R205, R232, R400): the line's bytes, lowest first, which of its sixteen
8-byte granules are poisoned, and the words that other cores hold. -/
structure LineReply where
  bytes : List Byte
  poison : BitVec 16
  marks : List HeldWord := []
  deriving DecidableEq, Repr, Inhabited

/-- A request for words of a line from another core (R232): the core, the 8-byte words, and whether
it is a STREL's request (R257). -/
structure GrantRequest where
  core : BitVec 18
  words : BitVec 16
  release : Bool
  /-- the partition of the requester (R399) -/
  part : BitVec 6 := 0
  /-- the home marks a copy with it: the words have been asked for and are being granted (R232) -/
  mark : Bool := false
  deriving DecidableEq, Repr, Inhabited

/-- The answer to a request of the modelled core for words of a line homed on another device
(R232): granted, refused because another core holds a word, or kept while both slots are in use, which
the core must know to publish (R236). -/
inductive GrantAnswer where
  | granted (words : BitVec 16)
  | refused (word : BitVec 4) (holder : BitVec 18)
  | waits
  deriving DecidableEq, Repr

/-- What a WB packet can be at the home (R210, R229, R400), an engine's write among them (R239). -/
inductive WriteBackKind where
  | writeBack
  | publication
  | eviction
  | engine
  deriving DecidableEq, Repr

/-- A write-back, publication merge or eviction notice from another holder (R210): the written
8-byte words of the line, named by `words`, lowest first in `data`, those of them that are poisoned
(R223), the partition, and the key id of the words (R212). -/
structure WriteBack where
  kind : WriteBackKind
  core : BitVec 18
  sharer : Sharer
  words : BitVec 16
  data : List Word
  logged : Bool
  poison : BitVec 16 := 0
  part : BitVec 6 := 0
  key : BitVec 6 := 0
  deriving DecidableEq, Repr

/-- An atomic request at a home slice (R252 to R257, R400): the ATOM fields, the operands, and who
asks for which register. -/
structure AtomRequest where
  op : BitVec 6
  size : BitVec 2
  order : BitVec 2
  posted : Bool
  pa : BitVec 44
  part : BitVec 6
  key : BitVec 6
  core : BitVec 18
  exp : BitVec 128
  new : BitVec 128
  logged : Bool
  /-- where the reply of a request that came in a packet goes: source device and port, and the wait
  entries of switches on its way (R409) -/
  via : Option (BitVec 8 × BitVec 10) := none
  tags : List (BitVec 8 × Nat) := []
  /-- the cores of the posted requests in it, each of which a poisoned target leaves a RAS record for (R410) -/
  lost : List (BitVec 18) := []
  /-- the page is streaming (R209) -/
  streaming : Bool := false
  deriving DecidableEq, Repr, Inhabited

/-- The reply to an atomic of the modelled core (R242): the old value, or a poisoned target (R258),
for the outstanding atomic number `id`. -/
structure AtomReply where
  id : Nat
  old : BitVec 128
  poisoned : Bool
  deriving DecidableEq, Repr, Inhabited

/-- A monitor decrement (R268, R269): the line and the word that were watched, the counter and the
partition. -/
structure MonitorDecrement where
  line : LineId
  word : BitVec 4
  n : BitVec 12
  part : BitVec 6
  deriving DecidableEq, Repr, Inhabited

/-- A write of STASHCFG by a core of the cluster (R203, R206): its number and the value. -/
structure StashPlace where
  core : BitVec 2
  value : Word
  deriving DecidableEq, Repr, Inhabited

/-- A link as one of its devices numbers it (R396). -/
structure LinkEnd where
  dev : BitVec 8
  link : BitVec 5
  deriving DecidableEq, Repr, Inhabited

/-- A slab piece that reaches this core (R310, R311). A Y slab has a middle piece and the two corner
pieces of the diagonal neighbours (R308). -/
structure Slab where
  slot : BitVec 3
  face : BitVec 3
  piece : BitVec 2
  base : BitVec 32
  part : BitVec 6
  bytes : List Byte
  /-- the sender's rule FIXED gave the block, so no coordinate of it maps any further (R308) -/
  fixed : Bool := false
  deriving DecidableEq, Repr, Inhabited

/-- A packet of the Carr fabric (R399): the header fields; LEN is the length of the body. Beside the body
go what the layout of R400 has no bits for and other rules need: the poisoned granules of the body
(R223), the held words of a line (R232), that a message is a spawn (R153), the wait entries by which switches
know the reply of a merged request (R409), device and number, the last merge first, the cores of posted
requests that were merged (R410), and the key id of a line or of its words (R212). [log 50: DESIGN CHOICE] -/
structure Packet where
  ddev : BitVec 8
  dport : BitVec 10
  sport : BitVec 10
  part : BitVec 6
  vc : BitVec 3
  kind : BitVec 5
  sdev : BitVec 8
  flow : BitVec 8
  pa : BitVec 44
  body : List Byte
  poison : BitVec 16 := 0
  marks : List HeldWord := []
  spawn : Bool := false
  tags : List (BitVec 8 × Nat) := []
  lost : List (BitVec 18) := []
  key : BitVec 6 := 0
  deriving DecidableEq, Repr, Inhabited

/-- One move of the device's Carr switch or of the F-die crossbar (R395, R397, R402): a packet arrives on
a link, or an output serves its next packet: 0 to 29 a link, 30 the F-die, and the crossbar's outputs 32
to 35 to the dies, 36 to the CFE and 37 to the switch. -/
inductive SwitchMove where
  | arrive (link : BitVec 5) (p : Packet)
  | depart (out : BitVec 6)
  deriving DecidableEq, Repr

/-- The fabric control packets of R400: IEEE 1588 time, switch error reports, slice agreements. -/
inductive Control where
  | time (t : Word)
  | switchError (w0 w1 : Word)
  | sliceAgreement (part : BitVec 6) (at_ : Word)
  deriving DecidableEq, Repr


/-- The key of a flow record (R423). -/
structure FlowKey where
  part : BitVec 6
  cls : BitVec 8
  fid : Word
  deriving DecidableEq, Repr, Inhabited

/-- A PARK request of another core (R368): its OP and HOW codes, and the sender's partition (R355). -/
structure ParkRequest where
  op : BitVec 2
  how : BitVec 2
  part : BitVec 6
  deriving DecidableEq, Repr, Inhabited

/-- The units that keep a Peat stream (R389). -/
inductive LogUnit where
  | core
  | slice (n : BitVec 8)
  | switch
  | cfe
  deriving DecidableEq, Repr

/-- A Peat stream (R389): the partition and the unit. -/
structure LogStream where
  part : BitVec 6
  unit : LogUnit
  deriving DecidableEq, Repr

/-- What an SRAM error strikes (R222, R223): a granule of local memory (core index, address), of
global memory (a home line's granule), a general register of the running frame, a register of its level's bank (v0 at 32, k0 at 48,
e0 at 56, a0 at 60, g0 at 64, sc0 at 72), an L2 tag or
directory entry of a slice, or another structure. -/
inductive SramTarget where
  | local_ (c : BitVec 2) (granule : BitVec 17)
  | global (granule : BitVec 41)
  | register (x : Reg)
  | bank (r : BitVec 7)
  | instruction (granule : BitVec 61)
  | directory (slice : BitVec 8) (set : BitVec 10)
  | other (unit : BitVec 3)
  deriving DecidableEq, Repr

/-- An HTL packet (R431). -/
structure HtlPacket where
  type : BitVec 6
  part : BitVec 6
  stat : BitVec 4
  tid : BitVec 16
  len : BitVec 9
  rsvd : Bool
  addr : Word
  body : List Byte
  deriving DecidableEq, Repr, Inhabited

/-- A barrier operation on its way to the root (R155, R177). -/
inductive BarrierOp where
  | bari (n : BitVec 5) (count : BitVec 12)
  | arrive (n : BitVec 5) (count : BitVec 12) (epoch : Nat)
  | drop (n : BitVec 5) (epoch : Nat)
  | join (n : BitVec 5) (epoch : Nat)
  deriving DecidableEq, Repr

/-- Whose barrier operation reaches the root: the next of the modelled core, or another core's. -/
inductive BarrierSource where
  | own
  | other (op : BarrierOp)
  deriving DecidableEq, Repr

/-- The instructions and events, in the opcode table's order. -/
inductive Instr where
  /-- ADD (R74): Adds two general registers modulo 2^64. -/
  | add (d : Reg) (a : Reg) (b : Reg)
  /-- SUB (R74): Subtracts rb from ra modulo 2^64. -/
  | sub (d : Reg) (a : Reg) (b : Reg)
  /-- MUL (R74): Writes the low 64 bits of the product. -/
  | mul (d : Reg) (a : Reg) (b : Reg)
  /-- MULH (R74): Writes the high 64 bits of the signed 128-bit product. -/
  | mulh (d : Reg) (a : Reg) (b : Reg)
  /-- MULHU (R74): Writes the high 64 bits of the unsigned 128-bit product. -/
  | mulhu (d : Reg) (a : Reg) (b : Reg)
  /-- DIV (R75): Signed division truncating toward zero, saturating, never trapping. -/
  | div (d : Reg) (a : Reg) (b : Reg)
  /-- DIVU (R75): Unsigned division; division by zero gives all ones. -/
  | divu (d : Reg) (a : Reg) (b : Reg)
  /-- REM (R75): Signed remainder whose sign follows the dividend. -/
  | rem (d : Reg) (a : Reg) (b : Reg)
  /-- REMU (R75): Unsigned remainder. -/
  | remu (d : Reg) (a : Reg) (b : Reg)
  /-- AND (R74): Bitwise AND of two registers. -/
  | and (d : Reg) (a : Reg) (b : Reg)
  /-- OR (R74): Bitwise OR of two registers. -/
  | or (d : Reg) (a : Reg) (b : Reg)
  /-- XOR (R74): Bitwise XOR of two registers. -/
  | xor (d : Reg) (a : Reg) (b : Reg)
  /-- ANDN (R74): ra AND NOT rb. -/
  | andn (d : Reg) (a : Reg) (b : Reg)
  /-- SHL (R76): Left shift by rb[5:0]. -/
  | shl (d : Reg) (a : Reg) (b : Reg)
  /-- SHR (R76): Logical right shift by rb[5:0]. -/
  | shr (d : Reg) (a : Reg) (b : Reg)
  /-- SRA (R76): Arithmetic right shift by rb[5:0]. -/
  | sra (d : Reg) (a : Reg) (b : Reg)
  /-- ROT (R76): Right rotation by rb[5:0]. -/
  | rot (d : Reg) (a : Reg) (b : Reg)
  /-- MIN (R74): Signed minimum. -/
  | min (d : Reg) (a : Reg) (b : Reg)
  /-- MAX (R74): Signed maximum. -/
  | max (d : Reg) (a : Reg) (b : Reg)
  /-- MINU (R74): Unsigned minimum. -/
  | minu (d : Reg) (a : Reg) (b : Reg)
  /-- MAXU (R74): Unsigned maximum. -/
  | maxu (d : Reg) (a : Reg) (b : Reg)
  /-- SLT (R74): Sets 1 if ra is less than rb, signed. -/
  | slt (d : Reg) (a : Reg) (b : Reg)
  /-- SLTU (R74): Sets 1 if ra is less than rb, unsigned. -/
  | sltu (d : Reg) (a : Reg) (b : Reg)
  /-- CLZ (R77): Counts leading zero bits. -/
  | clz (d : Reg) (a : Reg)
  /-- CTZ (R77): Counts trailing zero bits. -/
  | ctz (d : Reg) (a : Reg)
  /-- POPC (R77): Counts set bits. -/
  | popc (d : Reg) (a : Reg)
  /-- SEL (R79): Selects ra or rb by the value of rd. -/
  | sel (d : Reg) (a : Reg) (b : Reg)
  /-- BEXT (R78): Extracts a bit field, optionally sign-extended. -/
  | bext (d : Reg) (a : Reg) (b : Reg)
  /-- BINS (R78): Inserts a bit field into rd. -/
  | bins (d : Reg) (a : Reg) (b : Reg)
  /-- LEA (R74): Adds ra and rb shifted left by 0 to 3. -/
  | lea (d : Reg) (a : Reg) (b : Reg) (s : BitVec 2)
  /-- ADD_IMM (R80): Adds a sign-extended 12-bit immediate. -/
  | addImm (d : Reg) (a : Reg) (i : BitVec 12)
  /-- SLT_IMM (R80): Signed compare with an immediate. -/
  | sltImm (d : Reg) (a : Reg) (i : BitVec 12)
  /-- SLTU_IMM (R80): Unsigned compare with a sign-extended immediate. -/
  | sltuImm (d : Reg) (a : Reg) (i : BitVec 12)
  /-- AND_IMM (R80): AND with an immediate. -/
  | andImm (d : Reg) (a : Reg) (i : BitVec 12)
  /-- OR_IMM (R80): OR with an immediate. -/
  | orImm (d : Reg) (a : Reg) (i : BitVec 12)
  /-- XOR_IMM (R80): XOR with an immediate. -/
  | xorImm (d : Reg) (a : Reg) (i : BitVec 12)
  /-- SHLI (R80): Left shift by an immediate amount. -/
  | shli (d : Reg) (a : Reg) (n : BitVec 6)
  /-- SHRI (R80): Logical right shift by an immediate amount. -/
  | shri (d : Reg) (a : Reg) (n : BitVec 6)
  /-- SRAI (R80): Arithmetic right shift by an immediate amount. -/
  | srai (d : Reg) (a : Reg) (n : BitVec 6)
  /-- ROTI (R80): Right rotation by an immediate amount. -/
  | roti (d : Reg) (a : Reg) (n : BitVec 6)
  /-- LIH (R81): Loads a sign-extended 20-bit immediate shifted left by 12. -/
  | lih (d : Reg) (i : BitVec 20)
  /-- ADDPC (R81): Adds a shifted 20-bit immediate to PC. -/
  | addpc (d : Reg) (i : BitVec 20)
  /-- BEQ (R82): Branches if ra equals rb. -/
  | beq (a : Reg) (b : Reg) (off : BitVec 12)
  /-- BNE (R82): Branches if ra differs from rb. -/
  | bne (a : Reg) (b : Reg) (off : BitVec 12)
  /-- BLT (R82): Branches if ra is less than rb, signed. -/
  | blt (a : Reg) (b : Reg) (off : BitVec 12)
  /-- BGE (R82): Branches if ra is at least rb, signed. -/
  | bge (a : Reg) (b : Reg) (off : BitVec 12)
  /-- BLTU (R82): Branches if ra is less than rb, unsigned. -/
  | bltu (a : Reg) (b : Reg) (off : BitVec 12)
  /-- BGEU (R82): Branches if ra is at least rb, unsigned. -/
  | bgeu (a : Reg) (b : Reg) (off : BitVec 12)
  /-- DBNZ (R83): Decrements ra and branches if the result is nonzero. -/
  | dbnz (a : Reg) (off : BitVec 12)
  /-- JAL (R84): Writes the link and jumps PC-relative. -/
  | jal (d : Reg) (i : BitVec 20)
  /-- JALR (R84): Writes the link and jumps to ra plus offset; an odd target traps MISALIGN. -/
  | jalr (d : Reg) (a : Reg) (i : BitVec 12)
  /-- LDB (R86): Loads a sign-extended byte. -/
  | ldb (d : Reg) (a : Reg) (i : BitVec 12)
  /-- LDH (R86): Loads a sign-extended halfword. -/
  | ldh (d : Reg) (a : Reg) (i : BitVec 12)
  /-- LDW (R86): Loads a sign-extended word. -/
  | ldw (d : Reg) (a : Reg) (i : BitVec 12)
  /-- LDD (R86): Loads a doubleword, checked in the order of R87. -/
  | ldd (d : Reg) (a : Reg) (i : BitVec 12)
  /-- LDBU (R86): Loads a zero-extended byte. -/
  | ldbu (d : Reg) (a : Reg) (i : BitVec 12)
  /-- LDHU (R86): Loads a zero-extended halfword. -/
  | ldhu (d : Reg) (a : Reg) (i : BitVec 12)
  /-- LDWU (R86): Loads a zero-extended word. -/
  | ldwu (d : Reg) (a : Reg) (i : BitVec 12)
  /-- STB (R86): Stores a byte. -/
  | stb (s : Reg) (a : Reg) (i : BitVec 12)
  /-- STH (R86): Stores a halfword. -/
  | sth (s : Reg) (a : Reg) (i : BitVec 12)
  /-- STW (R86): Stores a word. -/
  | stw (s : Reg) (a : Reg) (i : BitVec 12)
  /-- STD (R86): Stores a doubleword, with the grant of R232 for global words. -/
  | std (s : Reg) (a : Reg) (i : BitVec 12)
  /-- LDK (R93): Loads a constant-window entry. -/
  | ldk (d : Reg) (i : BitVec 8)
  /-- ADD_K (R93): Adds a constant-window entry. -/
  | addK (d : Reg) (a : Reg) (i : BitVec 8)
  /-- SUB_K (R93): Subtracts a constant-window entry. -/
  | subK (d : Reg) (a : Reg) (i : BitVec 8)
  /-- MUL_K (R93): Multiplies by a constant-window entry. -/
  | mulK (d : Reg) (a : Reg) (i : BitVec 8)
  /-- AND_K (R93): ANDs with a constant-window entry. -/
  | andK (d : Reg) (a : Reg) (i : BitVec 8)
  /-- OR_K (R93): ORs with a constant-window entry. -/
  | orK (d : Reg) (a : Reg) (i : BitVec 8)
  /-- XOR_K (R93): XORs with a constant-window entry. -/
  | xorK (d : Reg) (a : Reg) (i : BitVec 8)
  /-- LDX_K (R93): Loads an extension register from a constant-window entry. -/
  | ldxK (m : BitVec 2) (i : BitVec 8)
  /-- FADD_K (R130): Floating add of a constant-window entry, rounded by FPCTL.RM. -/
  | faddK (d : Reg) (a : Reg) (p : BitVec 1) (i : BitVec 8)
  /-- FMUL_K (R130): Floating multiply by a constant-window entry. -/
  | fmulK (d : Reg) (a : Reg) (p : BitVec 1) (i : BitVec 8)
  /-- FFMA_K (R130): Fused rd times ra plus a constant-window entry. -/
  | ffmaK (d : Reg) (a : Reg) (p : BitVec 1) (i : BitVec 8)
  /-- FSUB_K (R130): Floating subtract of a constant-window entry. -/
  | fsubK (d : Reg) (a : Reg) (p : BitVec 1) (i : BitVec 8)
  /-- LDX (R94): Loads an extension register from memory. -/
  | ldx (m : BitVec 2) (a : Reg) (i : BitVec 12)
  /-- STX (R94): Stores an extension register to memory. -/
  | stx (m : BitVec 2) (a : Reg) (i : BitVec 12)
  /-- MTE (R94): Moves a general register to an extension register. -/
  | mte (m : BitVec 2) (a : Reg)
  /-- MFE (R94): Moves an extension register to a general register. -/
  | mfe (d : Reg) (m : BitVec 2)
  /-- FLI (R131): Loads an FP32 immediate, canonicalising NaN. -/
  | fli (d : Reg) (i : BitVec 20)
  /-- FADDI (R131): Adds an FP32 immediate to rd. -/
  | faddi (d : Reg) (i : BitVec 20)
  /-- FMULI (R131): Multiplies rd by an FP32 immediate. -/
  | fmuli (d : Reg) (i : BitVec 20)
  /-- FADD (R127): Floating add, rounded by rm3. -/
  | fadd (d : Reg) (a : Reg) (b : Reg) (f : BitVec 3) (m : BitVec 3)
  /-- FSUB (R127): Floating subtract. -/
  | fsub (d : Reg) (a : Reg) (b : Reg) (f : BitVec 3) (m : BitVec 3)
  /-- FMUL (R127): Floating multiply. -/
  | fmul (d : Reg) (a : Reg) (b : Reg) (f : BitVec 3) (m : BitVec 3)
  /-- FDIV (R127): Floating divide on the shared divider. -/
  | fdiv (d : Reg) (a : Reg) (b : Reg) (f : BitVec 3) (m : BitVec 3)
  /-- FSQRT (R127): Floating square root. -/
  | fsqrt (d : Reg) (a : Reg) (f : BitVec 3) (m : BitVec 3)
  /-- FMIN (R132): Floating minimum with -0 below +0. -/
  | fmin (d : Reg) (a : Reg) (b : Reg) (f : BitVec 3)
  /-- FMAX (R132): Floating maximum. -/
  | fmax (d : Reg) (a : Reg) (b : Reg) (f : BitVec 3)
  /-- FCMP (R133): Floating compare by condition eq, lt, le or un. -/
  | fcmp (d : Reg) (a : Reg) (b : Reg) (f : BitVec 3) (c : BitVec 2)
  /-- FCLASS (R134): Writes the class word of ra. -/
  | fclass (d : Reg) (a : Reg) (f : BitVec 3)
  /-- FSGN (R135): Magnitude of ra with the sign of rb. -/
  | fsgn (d : Reg) (a : Reg) (b : Reg) (f : BitVec 3)
  /-- FSGNN (R135): Magnitude of ra with the complemented sign of rb. -/
  | fsgnn (d : Reg) (a : Reg) (b : Reg) (f : BitVec 3)
  /-- FSGNX (R135): Magnitude of ra with the XOR of both signs. -/
  | fsgnx (d : Reg) (a : Reg) (b : Reg) (f : BitVec 3)
  /-- FCVT (R136): Converts between float and integer types. -/
  | fcvt (d : Reg) (a : Reg) (t : BitVec 3) (s : BitVec 3) (m : BitVec 3)
  /-- FFMA (R129): Fused multiply-add with one rounding. -/
  | ffma (d : Reg) (a : Reg) (b : Reg) (c : Reg) (f : BitVec 1) (m : BitVec 3)
  /-- CSRR (R95): Reads a control register, checked by R95. -/
  | csrr (d : Reg) (n : BitVec 12)
  /-- CSRW (R95): Writes a control register that has no row of its own, checked by R95. -/
  | csrw (a : Reg) (n : BitVec 12)
  /-- SVC (R96): Synchronous trap with cause SVC into a supervisor trap frame. -/
  | svc (c : BitVec 12)
  /-- TRET (R350): Leaves the trap frame and continues at TRAPPC, applying MFAULT.ABORT. -/
  | tret
  /-- IFENCE (R99): Makes later fetches see the core's earlier stores. -/
  | ifence
  /-- BRK (R97): Breakpoint trap, or debug entry when BRKEN is set. -/
  | brk (c : BitVec 12)
  /-- SPT (R100): Marks a safe point. -/
  | spt (n : BitVec 12)
  /-- NOP (R100): No effect; counted in RETIRED. -/
  | nop
  /-- SEND (R163): Publishes and sends a message built from a 64-byte image through q3. -/
  | send (a : Reg) (b : Reg) (t : BitVec 2)
  /-- SPAWN (R164): Sends a message that the target may refuse, returning it as a bounce. -/
  | spawn (d : Reg) (a : Reg) (b : Reg)
  /-- TEND (R166): Ends the running frame, publishing its stores and popping the frame stack. -/
  | tend
  /-- CLAIM (R167): Pushes a claim and raises THR to the resource's ceiling. -/
  | claim (a : Reg)
  /-- UNCLAIM (R168): Pops the most recent claim and restores THR. -/
  | unclaim
  /-- DCSET (R169): Binds a dependence counter with a count. -/
  | dcset (a : Reg) (b : Reg)
  /-- DCDEC (R170): Decrements a local counter or sends a remote decrement. -/
  | dcdec (a : Reg)
  /-- TAGARM_ANY (R171): Arms or cancels a slot that fires when any masked tag is set. -/
  | tagarmAny (a : Reg) (b : Reg)
  /-- TAGARM_ALL (R171): Arms a slot that fires when all masked tags are set. -/
  | tagarmAll (a : Reg) (b : Reg)
  /-- BARI (R174): Initialises a gang barrier with a count, cancelling armed successors. -/
  | bari (a : Reg) (n : BitVec 5)
  /-- BARV (R175): Publishes and arrives at a barrier, optionally arming a successor. -/
  | barv (a : Reg) (n : BitVec 5)
  /-- BARD (R176): Requests a drop at the next flip. -/
  | bard (n : BitVec 5)
  /-- BARJ (R176): Requests a join at the next flip. -/
  | barj (n : BitVec 5)
  /-- BARQ (R176): Reads a barrier register. -/
  | barq (d : Reg) (n : BitVec 5)
  /-- AMOADD (R252): Atomic add at the home slice. -/
  | amoadd (d : Reg) (a : Reg) (b : Reg) (o : BitVec 2) (s : BitVec 1)
  /-- AMOAND (R252): Atomic AND at the home slice. -/
  | amoand (d : Reg) (a : Reg) (b : Reg) (o : BitVec 2) (s : BitVec 1)
  /-- AMOOR (R252): Atomic OR at the home slice. -/
  | amoor (d : Reg) (a : Reg) (b : Reg) (o : BitVec 2) (s : BitVec 1)
  /-- AMOXOR (R252): Atomic XOR at the home slice. -/
  | amoxor (d : Reg) (a : Reg) (b : Reg) (o : BitVec 2) (s : BitVec 1)
  /-- AMOMIN (R252): Atomic signed minimum. -/
  | amomin (d : Reg) (a : Reg) (b : Reg) (o : BitVec 2) (s : BitVec 1)
  /-- AMOMAX (R252): Atomic signed maximum. -/
  | amomax (d : Reg) (a : Reg) (b : Reg) (o : BitVec 2) (s : BitVec 1)
  /-- AMOMINU (R252): Atomic unsigned minimum. -/
  | amominu (d : Reg) (a : Reg) (b : Reg) (o : BitVec 2) (s : BitVec 1)
  /-- AMOMAXU (R252): Atomic unsigned maximum. -/
  | amomaxu (d : Reg) (a : Reg) (b : Reg) (o : BitVec 2) (s : BitVec 1)
  /-- AMOSWP (R252): Atomic swap. -/
  | amoswp (d : Reg) (a : Reg) (b : Reg) (o : BitVec 2) (s : BitVec 1)
  /-- CAS (R253): Compare and swap of 4 or 8 bytes. -/
  | cas (d : Reg) (a : Reg) (b : Reg) (o : BitVec 2) (s : BitVec 1)
  /-- CAS2 (R254): Compare and swap of 16 aligned bytes using register pairs. -/
  | cas2 (d : Reg) (a : Reg) (b : Reg) (o : BitVec 2)
  /-- REDADD (R255): Posted add at the home slice, combinable in switches. -/
  | redadd (a : Reg) (b : Reg) (o : BitVec 1) (s : BitVec 1)
  /-- LDACQ (R256): Acquire load performed at the home slice. -/
  | ldacq (d : Reg) (a : Reg) (s : BitVec 2)
  /-- STREL (R257): Publishes the core's stores, then stores a value as a release. -/
  | strel (a : Reg) (b : Reg) (s : BitVec 2)
  /-- FENCE (R245): Full fence within a scope: release and acquire. -/
  | fence (s : BitVec 2)
  /-- FENCE_ACQ (R245): Acquire fence. -/
  | fenceAcq (s : BitVec 2)
  /-- FENCE_REL (R245): Release fence within a scope. -/
  | fenceRel (s : BitVec 2)
  /-- FENCEX (R246): Orders accesses of one path class before those of another. -/
  | fencex (s : BitVec 2) (p : BitVec 5) (q : BitVec 5)
  /-- SFLUSH (R264): Writes back the written words of stash lines in a range. -/
  | sflush (a : Reg) (b : Reg)
  /-- SINV (R264): Writes back and invalidates stash lines in a range. -/
  | sinv (a : Reg) (b : Reg)
  /-- SPF (R265): Starts stash fills for up to 32 lines of a range. -/
  | spf (a : Reg) (b : Reg)
  /-- MONARM (R267): Registers a monitor on a word at its home slice. -/
  | monarm (d : Reg) (a : Reg) (b : Reg)
  /-- MONDIS (R269): Removes this core's monitors on a word, cancelling them. -/
  | mondis (a : Reg)
  /-- VADD (R185): Lane-wise add. -/
  | vadd (d : BitVec 4) (a : BitVec 4) (b : BitVec 4) (k : BitVec 3) (e : BitVec 3)
  /-- VSUB (R185): Lane-wise subtract. -/
  | vsub (d : BitVec 4) (a : BitVec 4) (b : BitVec 4) (k : BitVec 3) (e : BitVec 3)
  /-- VMUL (R185): Lane-wise multiply. -/
  | vmul (d : BitVec 4) (a : BitVec 4) (b : BitVec 4) (k : BitVec 3) (e : BitVec 3)
  /-- VFMA (R185): Lane-wise fused multiply-add into vd. -/
  | vfma (d : BitVec 4) (a : BitVec 4) (b : BitVec 4) (k : BitVec 3) (e : BitVec 3)
  /-- VDIV (R185): Lane-wise floating divide. -/
  | vdiv (d : BitVec 4) (a : BitVec 4) (b : BitVec 4) (k : BitVec 3) (e : BitVec 3)
  /-- VMIN (R185): Lane-wise minimum. -/
  | vmin (d : BitVec 4) (a : BitVec 4) (b : BitVec 4) (k : BitVec 3) (e : BitVec 3)
  /-- VMAX (R185): Lane-wise maximum. -/
  | vmax (d : BitVec 4) (a : BitVec 4) (b : BitVec 4) (k : BitVec 3) (e : BitVec 3)
  /-- VABS (R185): Lane-wise absolute value. -/
  | vabs (d : BitVec 4) (a : BitVec 4) (k : BitVec 3) (e : BitVec 3)
  /-- VAND (R185): Lane-wise bitwise AND. -/
  | vand (d : BitVec 4) (a : BitVec 4) (b : BitVec 4) (k : BitVec 3) (e : BitVec 3)
  /-- VOR (R185): Lane-wise bitwise OR. -/
  | vor (d : BitVec 4) (a : BitVec 4) (b : BitVec 4) (k : BitVec 3) (e : BitVec 3)
  /-- VXOR (R185): Lane-wise bitwise XOR. -/
  | vxor (d : BitVec 4) (a : BitVec 4) (b : BitVec 4) (k : BitVec 3) (e : BitVec 3)
  /-- VSHL (R185): Lane-wise left shift. -/
  | vshl (d : BitVec 4) (a : BitVec 4) (b : BitVec 4) (k : BitVec 3) (e : BitVec 3)
  /-- VSHR (R185): Lane-wise logical right shift. -/
  | vshr (d : BitVec 4) (a : BitVec 4) (b : BitVec 4) (k : BitVec 3) (e : BitVec 3)
  /-- VSRA (R185): Lane-wise arithmetic right shift. -/
  | vsra (d : BitVec 4) (a : BitVec 4) (b : BitVec 4) (k : BitVec 3) (e : BitVec 3)
  /-- VADDS (R185): Lane-wise saturating add. -/
  | vadds (d : BitVec 4) (a : BitVec 4) (b : BitVec 4) (k : BitVec 3) (e : BitVec 3)
  /-- VSUBS (R185): Lane-wise saturating subtract. -/
  | vsubs (d : BitVec 4) (a : BitVec 4) (b : BitVec 4) (k : BitVec 3) (e : BitVec 3)
  /-- VCMPEQ (R186): Lane-wise equality into a mask register. -/
  | vcmpeq (d : BitVec 3) (a : BitVec 4) (b : BitVec 4) (k : BitVec 3) (e : BitVec 3)
  /-- VCMPLT (R186): Lane-wise less-than into a mask register. -/
  | vcmplt (d : BitVec 3) (a : BitVec 4) (b : BitVec 4) (k : BitVec 3) (e : BitVec 3)
  /-- VCMPLE (R186): Lane-wise less-or-equal into a mask register. -/
  | vcmple (d : BitVec 3) (a : BitVec 4) (b : BitVec 4) (k : BitVec 3) (e : BitVec 3)
  /-- VCMPLTU (R186): Lane-wise unsigned less-than into a mask register. -/
  | vcmpltu (d : BitVec 3) (a : BitVec 4) (b : BitVec 4) (k : BitVec 3) (e : BitVec 3)
  /-- VSEL (R187): Selects lanes of va or vb by a mask. -/
  | vsel (d : BitVec 4) (a : BitVec 4) (b : BitVec 4) (k : BitVec 3) (e : BitVec 3)
  /-- VCVT (R190): Converts lanes, with the conversion word in e3 of R191. -/
  | vcvt (d : BitVec 4) (a : BitVec 4) (s : BitVec 3) (k : BitVec 3) (e : BitVec 3)
  /-- VPERM (R189): Permutes lanes of va by indices in vb. -/
  | vperm (d : BitVec 4) (a : BitVec 4) (b : BitVec 4) (k : BitVec 3) (e : BitVec 3)
  /-- VBCAST (R189): Broadcasts a general register to lanes. -/
  | vbcast (d : BitVec 4) (a : BitVec 4) (k : BitVec 3) (e : BitVec 3)
  /-- VIDX (R189): Writes each lane's index. -/
  | vidx (d : BitVec 4) (k : BitVec 3) (e : BitVec 3)
  /-- VMOVX (R189): Moves one lane to a general register. -/
  | vmovx (d : BitVec 4) (a : BitVec 4) (b : BitVec 4) (e : BitVec 3)
  /-- VREDADD (R193): Sum reduction by the fixed pairwise tree. -/
  | vredadd (d : BitVec 4) (a : BitVec 4) (k : BitVec 3) (e : BitVec 3)
  /-- VREDMIN (R193): Minimum reduction. -/
  | vredmin (d : BitVec 4) (a : BitVec 4) (k : BitVec 3) (e : BitVec 3)
  /-- VREDMAX (R193): Maximum reduction. -/
  | vredmax (d : BitVec 4) (a : BitVec 4) (k : BitVec 3) (e : BitVec 3)
  /-- VMAND (R188): AND of two mask registers. -/
  | vmand (d : BitVec 3) (a : BitVec 3) (b : BitVec 3)
  /-- VMOR (R188): OR of two mask registers. -/
  | vmor (d : BitVec 3) (a : BitVec 3) (b : BitVec 3)
  /-- VMXOR (R188): XOR of two mask registers. -/
  | vmxor (d : BitVec 3) (a : BitVec 3) (b : BitVec 3)
  /-- VMPOPC (R188): Counts set bits of a mask register. -/
  | vmpopc (d : BitVec 4) (a : BitVec 3)
  /-- VGEN (R194): Fills lanes with generated values of a generator register. -/
  | vgen (d : BitVec 4) (g : BitVec 3) (b : BitVec 4) (k : BitVec 3) (e : BitVec 3)
  /-- VLD (R195): Contiguous vector load. -/
  | vld (d : BitVec 4) (a : BitVec 4) (k : BitVec 3) (e : BitVec 3)
  /-- VST (R195): Contiguous vector store. -/
  | vst (s : BitVec 4) (a : BitVec 4) (k : BitVec 3) (e : BitVec 3)
  /-- VLDS (R195): Strided vector load. -/
  | vlds (d : BitVec 4) (a : BitVec 4) (b : BitVec 4) (k : BitVec 3) (e : BitVec 3)
  /-- VSTS (R195): Strided vector store. -/
  | vsts (s : BitVec 4) (a : BitVec 4) (b : BitVec 4) (k : BitVec 3) (e : BitVec 3)
  /-- VGATH (R195): Gather load by signed byte offsets. -/
  | vgath (d : BitVec 4) (a : BitVec 4) (b : BitVec 4) (k : BitVec 3) (e : BitVec 3)
  /-- VSCAT (R195): Scatter store by signed byte offsets. -/
  | vscat (s : BitVec 4) (a : BitVec 4) (b : BitVec 4) (k : BitVec 3) (e : BitVec 3)
  /-- COPY (R324): Checks and queues a copy command in q1. -/
  | copy (a : Reg) (b : Reg) (q : BitVec 2)
  /-- CSHP (R323): Checks a shape image and writes it into a shape slot. -/
  | cshp (d : Reg) (a : Reg)
  /-- TAGTST (R321): Reads TAGS under a mask. -/
  | tagtst (d : Reg) (a : Reg)
  /-- TAGFF (R321): Finds the lowest set masked tag. -/
  | tagff (d : Reg) (a : Reg)
  /-- TAGCLR (R321): Clears masked TAGS bits. -/
  | tagclr (a : Reg)
  /-- MMA (R327): Queues a tile multiply-accumulate reading e0 to e3 at issue. -/
  | mma (t : BitVec 2) (q : BitVec 2)
  /-- MMAC (R328): Queues a chained product using a converted source tile as A. -/
  | mmac (t : BitVec 2) (s : BitVec 2) (q : BitVec 2)
  /-- ACLD (R329): Queues a load of a tile from memory. -/
  | acld (t : BitVec 2) (a : Reg)
  /-- ACST (R329): Queues a store of a tile to memory. -/
  | acst (t : BitVec 2) (a : Reg)
  /-- ACZ (R330): Queues the zeroing of a tile. -/
  | acz (t : BitVec 2)
  /-- ACCVT (R331): Queues conversion of a tile and its store to memory. -/
  | accvt (t : BitVec 2) (a : Reg) (b : Reg)
  /-- GSET (R333): Loads a generator register from 32 bytes of memory. -/
  | gset (a : Reg) (g : BitVec 3)
  /-- GGET (R333): Stores a generator register to memory. -/
  | gget (a : Reg) (g : BitVec 3)
  /-- GDRAW (R334): Produces one hash and value of a generator. -/
  | gdraw (d : Reg) (a : Reg) (g : BitVec 3)
  /-- GRDEF (R335): Defines a grid slot from a descriptor and starts the exchange of base STEP. -/
  | grdef (a : Reg) (s : BitVec 3)
  /-- GRBC (R336): Changes one face's boundary rule. -/
  | grbc (a : Reg) (s : BitVec 3)
  /-- GRSTEP (R337): Advances a grid slot's step and starts an exchange every d steps. -/
  | grstep (s : BitVec 3) (q : BitVec 2)
  /-- LDHS (R338): Step-tagged load of a grid cell, which may stall or trap STALE. -/
  | ldhs (d : Reg) (a : Reg) (s : BitVec 3)
  /-- GRQ (R339): Queries a grid slot's state. -/
  | grq (d : Reg) (a : Reg) (s : BitVec 3)
  /-- PARK (R368): Parks the core, resumes or parks another core of the partition. -/
  | park (a : Reg)
  /-- CTXSV (R369): Saves the core context or the trapped frame's window. -/
  | ctxsv (a : Reg)
  /-- CTXRS (R369): Restores the core context or the trapped frame's window. -/
  | ctxrs (a : Reg)
  /-- TLBINV (R370): Publishes, then invalidates translation-cache entries. -/
  | tlbinv (a : Reg) (b : Reg)
  /-- PKTEMIT (R418): Emits a message packet from a kernel's scratch image. -/
  | pktemit (a : Reg) (b : Reg)
  /-- PKTFWD (R419): Forwards the current packet and ends the invocation. -/
  | pktfwd (a : Reg)
  /-- PKTDROP (R419): Discards the current packet and ends the invocation. -/
  | pktdrop
  /-- SIGNAL (R420): Increments a CFE signal count, resuming one waiter. -/
  | signal (a : Reg)
  /-- PARKQ (R420): Decrements a signal or gives up the slot and waits. -/
  | parkq (a : Reg)
  /-- LAUNCH (R420): Queues a gang launch from a launch header. -/
  | launch (a : Reg) (b : Reg)
  /-- LOOPB (R417): Bounded backward loop on a counter register. -/
  | loopb (d : Reg) (n : BitVec 8) (o : BitVec 12)
  /-- C_ADDI (R44): 16-bit add immediate. -/
  | cAddi (d : Reg) (i : BitVec 6)
  /-- C_LI (R44): 16-bit load immediate. -/
  | cLi (d : Reg) (i : BitVec 6)
  /-- C_SHLI (R44): 16-bit left shift immediate. -/
  | cShli (d : Reg) (i : BitVec 6)
  /-- C_SHRI (R44): 16-bit logical right shift immediate. -/
  | cShri (d : Reg) (i : BitVec 6)
  /-- C_SRAI (R44): 16-bit arithmetic right shift immediate. -/
  | cSrai (d : Reg) (i : BitVec 6)
  /-- C_ANDI (R44): 16-bit AND immediate. -/
  | cAndi (d : Reg) (i : BitVec 6)
  /-- C_LDD_SP (R44): 16-bit doubleword load relative to x2. -/
  | cLddSp (d : Reg) (i : BitVec 6)
  /-- C_STD_SP (R44): 16-bit doubleword store relative to x2. -/
  | cStdSp (d : Reg) (i : BitVec 6)
  /-- C_MV (R44): 16-bit register move. -/
  | cMv (a : Reg) (d : Reg)
  /-- C_ADD (R44): 16-bit add. -/
  | cAdd (a : Reg) (d : Reg)
  /-- C_SUB (R44): 16-bit subtract. -/
  | cSub (a : Reg) (d : Reg)
  /-- C_AND (R44): 16-bit AND. -/
  | cAnd (a : Reg) (d : Reg)
  /-- C_OR (R44): 16-bit OR. -/
  | cOr (a : Reg) (d : Reg)
  /-- C_XOR (R44): 16-bit XOR. -/
  | cXor (a : Reg) (d : Reg)
  /-- C_JR (R44): 16-bit register jump. -/
  | cJr (a : Reg)
  /-- C_JALR (R44): 16-bit register jump and link. -/
  | cJalr (a : Reg) (d : Reg)
  /-- C_LDD (R44): 16-bit doubleword load at 0(ra). -/
  | cLdd (a : Reg) (d : Reg)
  /-- C_STD (R44): 16-bit doubleword store at 0(ra). -/
  | cStd (a : Reg) (d : Reg)
  /-- C_LDW (R44): 16-bit word load at 0(ra). -/
  | cLdw (a : Reg) (d : Reg)
  /-- C_STW (R44): 16-bit word store at 0(ra). -/
  | cStw (a : Reg) (d : Reg)
  /-- C_TEND (R44): 16-bit TEND. -/
  | cTend
  /-- C_NOP (R44): 16-bit NOP. -/
  | cNop
  /-- C_BRK (R44): 16-bit breakpoint, brk #0. -/
  | cBrk
  /-- C_BEQZ (R44): 16-bit branch if zero. -/
  | cBeqz (a : Reg) (i : BitVec 6)
  /-- C_BNEZ (R44): 16-bit branch if nonzero. -/
  | cBnez (a : Reg) (i : BitVec 6)
  /-- C_J (R44): 16-bit jump. -/
  | cJ (i : BitVec 11)
  /-- C_DBNZ (R44): 16-bit decrement and branch if nonzero. -/
  | cDbnz (a : Reg) (i : BitVec 6)
  /-- C_LDK (R44): 16-bit constant-window load. -/
  | cLdk (d : Reg) (i : BitVec 8)
  /-- STASHCFG_WRITE (R203): A CSRW of STASHCFG flushes and invalidates the stash, then places it anew. -/
  | stashcfgWrite (w : StashPlace)
  /-- QUEUE_WRITE_RESUME (R13): A queue write stalled on a full queue begins when the queue has space. -/
  | queueWriteResume (q : BitVec 2)
  /-- DISPATCH (R144): The head of the highest queue above THR is dispatched into a new frame. -/
  | dispatch
  /-- MSG (R140): A message reaches a core's port and is placed in the inbox, waits, or goes to a late ring. -/
  | msg (src : MsgSource)
  /-- INBOX_WRITE_WAITING (R140): A message waiting at the port is written in the cycle a slot of its kind frees. -/
  | inboxWriteWaiting
  /-- RDEC (R151): A remote decrement is applied at the target's port. -/
  | rdec (d : Decrement)
  /-- BARRIER_FLIP (R155): When arrivals reach EXPECT the barrier flips and armed successors are released. -/
  | barrierFlip (n : BitVec 5)
  /-- COPY_START (R277): A free copy channel takes the highest-level pending q1 command. -/
  | copyStart
  /-- COPY_COMPLETE (R273): A copy ends and its completion sets its tag, decrements or sends its release message. -/
  | copyComplete (ch : BitVec 4)
  /-- MATRIX_COMMAND_START (R293): The matrix engine starts or resumes the earliest operation of the highest level. -/
  | matrixCommandStart
  /-- MATRIX_CHUNK (R293): A chunk is added to D and the engine chooses at the boundary, possibly suspending. -/
  | matrixChunk
  /-- MATRIX_COMPLETE (R273): A matrix command ends with its completion and status. -/
  | matrixComplete
  /-- MATRIX_FETCH_FAULT (R294): An operand-fetch translation or access failure faults the operation. -/
  | matrixFetchFault
  /-- MFETCH (R348): A pending MFETCH trap is taken at the issuing core's next boundary. -/
  | mfetch
  /-- LEVEE_TAKE (R337): The Levee engine takes a q2 entry by level and age and begins its exchange. -/
  | leveeTake
  /-- SLAB (R311): A slab reaches a receiver and is landed, held or discarded. -/
  | slab (p : Slab)
  /-- LDHS_STALL_LIMIT (R313): A stalled LDHS waiting 2.4 µs traps STALE with reason 3. -/
  | ldhsStallLimit
  /-- STORE_BUFFER_DRAIN (R213): A store-buffer entry drains to the stash or home slice. -/
  | storeBufferDrain
  /-- FILL (R210): A fill request reaches the home or peer slice, which records the requester and sends data. -/
  | fill (line : LineId) (req : FillRequest)
  /-- DATA (R205): A line reply arrives and completes a stash or peer fill. -/
  | data (line : LineId) (r : LineReply)
  /-- NOTICE (R232): A grant request reaches the home, which refuses, waits or marks copies and grants. -/
  | notice (line : LineId) (req : GrantRequest)
  /-- GRANT (R232): A grant or refusal returns to the storing core. -/
  | grant (line : LineId) (g : GrantAnswer)
  /-- WB (R210): A write-back, publication merge or eviction notice is applied at the home. -/
  | wb (line : LineId) (w : WriteBack)
  /-- INV (R210): An invalidation reaches a copy, which is invalidated and acknowledged. -/
  | inv (req : Invalidation)
  /-- ACK (R229): An acknowledgement returns; the last one lets held effects proceed. -/
  | ack (line : LineId) (src : Sharer)
  /-- ATOM (R252): An atomic request is performed at its home slice in the line's order. -/
  | atom (req : AtomRequest)
  /-- CATOM (R409): A combined atomic group is performed at the home as one atomic. -/
  | catom (reqs : List AtomRequest)
  /-- ATOMR (R242): An atomic reply returns and writes the destination register. -/
  | atomr (r : AtomReply)
  /-- MDEC (R268): A monitor decrement reaches the arming core, freeing its entry. -/
  | mdec (d : MonitorDecrement) (status : BitVec 16)
  /-- PACKET_FORWARD (R397): A switch routes a packet one hop by the fixed rule. -/
  | packetForward (m : SwitchMove)
  /-- CTRL (R412): A fabric control packet, such as an IEEE 1588 time message, is received. -/
  | ctrl (c : Control)
  /-- CONTROL_FLIT (R407): A control flit announces limits and returns credits. -/
  | controlFlit (link : BitVec 5) (f : List Byte)
  /-- LIMIT_PERIOD (R405): Every 1024 link cycles the receiver computes new buffer targets. -/
  | limitPeriod (link : BitVec 5)
  /-- LINK_REPLAY (R398): A flit that fails its CRC is replayed. -/
  | linkReplay (link : BitVec 5)
  /-- LINK_DOWN (R398): A link failing 16 replays in a row is taken down and routes are rechosen. -/
  | linkDown (l : LinkEnd)
  /-- LINK_UP (R398): A link comes back and routes are chosen again. -/
  | linkUp (l : LinkEnd)
  /-- KERNEL_INVOKE (R423): A packet of a loaded flow class runs its kernel on a Sedge processor. -/
  | kernelInvoke
  /-- FLOW_TIMEOUT (R424): A flow's timer reaches TMO and runs a timeout invocation or frees the record. -/
  | flowTimeout (key : FlowKey)
  /-- DEADLINE (R426): An invocation not ended after 2048 cycles is stopped with a runtime trap. -/
  | deadline (proc : BitVec 4)
  /-- SLICE_INSTANT (R360): TIME reaching SLAT.AT makes the core switch-pending. -/
  | sliceInstant
  /-- SLICE_DEADLINE (R361): AT plus 20 µs passes and the core makes a full save. -/
  | sliceDeadline
  /-- CONTEXT_RESTORE (R364): After its save, the core restores the incoming partition. -/
  | contextRestore (area : BitVec 44)
  /-- PARK_REQUEST (R368): A PARK request reaches its target, which parks or resumes. -/
  | parkRequest (r : ParkRequest)
  /-- WATCHDOG (R356): The gang watchdog exceeds WDLIM and posts a fault message. -/
  | watchdog
  /-- HALTREQ (R372): A DMCTL write requesting a halt sends cores into debug mode. -/
  | haltreq (mask : BitVec 4)
  /-- RESUMEREQ (R375): A DMCTL write resumes named cores at DPCc, or steps one instruction. -/
  | resumereq (mask : BitVec 4)
  /-- DEBUG_TRIGGER (R373): A trigger from another cluster halts this cluster. -/
  | debugTrigger
  /-- ENGSTEP (R377): Lets one frozen engine advance one chunk or one copy. -/
  | engstep (v : Word)
  /-- ACMD_READ_CONTEXT (R374): Reads a doubleword of a halted core's context. -/
  | acmdReadContext (off : BitVec 55)
  /-- ACMD_WRITE_CONTEXT (R374): Writes a doubleword of a halted core's context. -/
  | acmdWriteContext (off : BitVec 55)
  /-- ACMD_READ_VA (R374): Reads 8 bytes at a VA through the halted core. -/
  | acmdReadVa (va : BitVec 55)
  /-- ACMD_WRITE_VA (R374): Writes and publishes 8 bytes at a VA through the halted core. -/
  | acmdWriteVa (va : BitVec 55)
  /-- PC_SAMPLE (R381): Every 2^PEXP cycles the core writes a PC sample. -/
  | pcSample
  /-- REPLAY_HOLD_LIMIT (R391): A replay hold beyond REPLIM writes a divergence record and stops forcing. -/
  | replayHoldLimit (u : LogStream)
  /-- SRAM_ERROR (R222): An SRAM error is corrected and recorded, or poisons its granule. -/
  | sramError (t : SramTarget) (correctable : Bool)
  /-- PATROL_SCRUB (R224): The scrubber reads and corrects each populated line daily. -/
  | patrolScrub (line : BitVec 37)
  /-- AWR (R432): Host write of 8 bytes into the host aperture. -/
  | awr (p : HtlPacket)
  /-- AQ_CONFIG_WRITE (R430): A write of AQCRING, AQPRING or AQCFG takes effect when queue 0 is idle and resets its indices. -/
  | aqConfigWrite (off : BitVec 12) (v : Word)
  /-- REGISTER_WRITE (R430): A write to a device register without a row of its own, such as ICOAL, CFEWD or PWRCAP. -/
  | registerWrite (off : BitVec 12) (v : Word)
  /-- ARD (R432): Host read of 8 bytes of the host aperture. -/
  | ard (p : HtlPacket)
  /-- MWR (R429): Host write into a partition's global memory, acknowledged once published. -/
  | mwr (p : HtlPacket)
  /-- MRD (R432): Host read of a partition's global memory. -/
  | mrd (p : HtlPacket)
  /-- CPL (R432): The host's answer to a device read arrives. -/
  | cpl (p : HtlPacket)
  /-- DOORBELL (R434): A doorbell write gives a queue's new tail and the CFE reads commands. -/
  | doorbell (q : BitVec 8) (v : Word)
  /-- QCREATE (R436): Creates a command queue with its program. -/
  | qcreate
  /-- QDESTROY (R436): Destroys a queue, ending its invocation. -/
  | qdestroy
  /-- PCREATE (R439): Creates or replaces a partition from its block. -/
  | pcreate
  /-- PSLICE (R438): Schedules or cancels a partition switch and places context areas. -/
  | pslice
  /-- LOADQP (R436): Verifies and loads a queue program. -/
  | loadqp
  /-- LOADFC (R423): Verifies and loads a flow class on a switch. -/
  | loadfc
  /-- FENCE_CMD (R225): Fences a cluster, powering off its cores and engines. -/
  | fenceCmd
  /-- RETIRE (R445): Retires a rank of a gang with an implicit arrival and drop. -/
  | retire
  /-- RASRING (R438): Places the RAS ring. -/
  | rasring
  /-- PEAT (R438): Sets a partition's Peat log mode and streams. -/
  | peat
  /-- WATCH (R378): Writes a watchpoint comparator. -/
  | watch
  /-- MANIFEST (R392): Compares a manifest against the configuration. -/
  | manifest
  /-- FWLOAD (R450): In minimal mode writes the firmware image and resets. -/
  | fwload
  /-- WRING (R438): Places a die's watch ring. -/
  | wring
  /-- QUEUE_PROGRAM_INVOKE (R441): A free CFE slot runs a queue's program on its next command. -/
  | queueProgramInvoke
  /-- PARKQ_TIMEOUT (R442): A PARKQ waiting CFEWD.LIMIT is reported as DEADLOCK or WAITLONG. -/
  | parkqTimeout (q : BitVec 8)
  /-- GANG_LAUNCH (R444): A queued launch writes constants and identities and sends initial messages. -/
  | gangLaunch
  /-- GANG_END (R445): A gang whose cores are all quiescent ends and its completion is written. -/
  | gangEnd (gang : BitVec 32)
  /-- RANGE_CHUNK_TAKE (R446): A die agent takes the next chunk for an idle core. -/
  | rangeChunkTake (die : BitVec 2)
  /-- INTERRUPT_HOLD (R448): The oldest unreported completion has waited HOLD µs and an interrupt is sent. -/
  | interruptHold (q : BitVec 8)
  /-- POWER_ON (R449): The boot ROM verifies the image, trains, self-tests, fences and synchronises TIME. -/
  | powerOn
  /-- BOOT_READY_TIMEOUT (R449): No ready report within 2 s fails the start. -/
  | bootReadyTimeout
  /-- THERMAL_THROTTLE (R451): Over-temperature or power cap lowers, and recovery raises, the die clock in 5 % steps. -/
  | thermalThrottle (die : BitVec 2) (hot : Bool)
  /-- BARRIER_OPERATION_AT_ROOT (R177): An arrival, drop or join request reaches the barrier network's root, which counts or records it and reports ARRIVED to the cores. -/
  | barrierOperationAtRoot (o : BarrierSource)
  /-- BARI_REACHES_CORE (R174): A BARI reaches another core of the gang, resets that core's barrier register and releases its armed successors with CANCELLED. -/
  | bariReachesCore (n : BitVec 5) (count : BitVec 12)
  /-- MONITOR_REMOVAL (R269): A MONDIS request reaches the home slice, which removes this core's registrations on the word and sends a CANCELLED decrement for each. -/
  | monitorRemoval
  /-- HOST_LINK_DOWN (R431): The UCIe host link fails to deliver a packet whole and is reported down. -/
  | hostLinkDown
  deriving DecidableEq, Repr

end Sys2Proof
end

