-- ==== Sys2Proof/WellFormed.lean ====
section
/-! DEFINITION. Which instructions an encoding can carry: the field values that R44 to R56 exclude,
beyond the widths the operand types fix. A word that carries an excluded value is ILLEGAL (R57). -/

namespace Sys2Proof

/-- The field values R41, R44, R47, R52 to R55 admit. -/
def Instr.wellFormed (i : Instr) : Bool :=
  match i with
  | .dbnz a _ => decide (a ≠ 0)
  | .fadd _ _ _ f _ => decide (f.toNat ≤ 1)
  | .fsub _ _ _ f _ => decide (f.toNat ≤ 1)
  | .fmul _ _ _ f _ => decide (f.toNat ≤ 1)
  | .fdiv _ _ _ f _ => decide (f.toNat ≤ 1)
  | .fsqrt _ _ f _ => decide (f.toNat ≤ 1)
  | .fmin _ _ _ f => decide (f.toNat ≤ 1)
  | .fmax _ _ _ f => decide (f.toNat ≤ 1)
  | .fcmp _ _ _ f _ => decide (f.toNat ≤ 1)
  | .fclass _ _ f => decide (f.toNat ≤ 1)
  | .fsgn _ _ _ f => decide (f.toNat ≤ 1)
  | .fsgnn _ _ _ f => decide (f.toNat ≤ 1)
  | .fsgnx _ _ _ f => decide (f.toNat ≤ 1)
  | .fcvt _ _ t s _ => decide (s ≠ t)
  | .cas2 d _ b _ => decide (d.toNat % 2 = 0) && decide (b.toNat % 2 = 0)
  | .fencex _ p q => decide (p.toNat ≤ 4) && decide (q.toNat ≤ 4)
  | .vfma _ _ _ _ e => decide (4 ≤ e.toNat)
  | .vdiv _ _ _ _ e => decide (4 ≤ e.toNat)
  | .vshl _ _ _ _ e => decide (e.toNat < 4)
  | .vshr _ _ _ _ e => decide (e.toNat < 4)
  | .vsra _ _ _ _ e => decide (e.toNat < 4)
  | .vadds _ _ _ _ e => decide (e.toNat < 4)
  | .vsubs _ _ _ _ e => decide (e.toNat < 4)
  | .vcmpltu _ _ _ _ e => decide (e.toNat < 4)
  | .vcvt _ _ s _ e => decide (e ≠ s)
  | .vidx _ _ e => decide (e.toNat < 4)
  | .loopb _ _ o => decide (o ≠ 0)
  | .cAddi d _ => decide (d ≠ 0)
  | .cLi d _ => decide (d ≠ 0)
  | .cShli d _ => decide (d ≠ 0)
  | .cShri d _ => decide (d ≠ 0)
  | .cSrai d _ => decide (d ≠ 0)
  | .cAndi d _ => decide (d ≠ 0)
  | .cMv _ d => decide (d ≠ 0)
  | .cAdd _ d => decide (d ≠ 0)
  | .cSub _ d => decide (d ≠ 0)
  | .cAnd _ d => decide (d ≠ 0)
  | .cOr _ d => decide (d ≠ 0)
  | .cXor _ d => decide (d ≠ 0)
  | .cJalr _ d => decide (d ≠ 0)
  | .cDbnz a _ => decide (a ≠ 0)
  | .cLdk d _ => decide (d ≠ 0)
  | _ => true

/-- An event row of the table: a step of another agent, not an instruction word. -/
def Instr.isEvent (i : Instr) : Bool :=
  match i with
  | .stashcfgWrite _ | .queueWriteResume _ | .dispatch | .msg _ | .inboxWriteWaiting | .rdec _ | .barrierFlip _ | .copyStart | .copyComplete _ | .matrixCommandStart | .matrixChunk | .matrixComplete | .matrixFetchFault | .mfetch | .leveeTake | .slab _ | .ldhsStallLimit | .storeBufferDrain | .fill _ _ | .data _ _ | .notice _ _ | .grant _ _ | .wb _ _ | .inv _ | .ack _ _ | .atom _ | .catom _ | .atomr _ | .mdec _ _ | .packetForward _ | .ctrl _ | .controlFlit _ _ | .limitPeriod _ | .linkReplay _ | .linkDown _ | .linkUp _ | .kernelInvoke | .flowTimeout _ | .deadline _ | .sliceInstant | .sliceDeadline | .contextRestore _ | .parkRequest _ | .watchdog | .haltreq _ | .resumereq _ | .debugTrigger | .engstep _ | .acmdReadContext _ | .acmdWriteContext _ | .acmdReadVa _ | .acmdWriteVa _ | .pcSample | .replayHoldLimit _ | .sramError _ _ | .patrolScrub _ | .awr _ | .aqConfigWrite _ _ | .registerWrite _ _ | .ard _ | .mwr _ | .mrd _ | .cpl _ | .doorbell _ _ | .qcreate | .qdestroy | .pcreate | .pslice | .loadqp | .loadfc | .fenceCmd | .retire | .rasring | .peat | .watch | .manifest | .fwload | .wring | .queueProgramInvoke | .parkqTimeout _ | .gangLaunch | .gangEnd _ | .rangeChunkTake _ | .interruptHold _ | .powerOn | .bootReadyTimeout | .thermalThrottle _ _ | .barrierOperationAtRoot _ | .bariReachesCore _ _ | .monitorRemoval | .hostLinkDown => true
  | _ => false

/-- A 16-bit instruction (R43). -/
def Instr.isHalf (i : Instr) : Bool :=
  match i with
  | .cAddi _ _ | .cLi _ _ | .cShli _ _ | .cShri _ _ | .cSrai _ _ | .cAndi _ _ | .cLddSp _ _ | .cStdSp _ _ | .cMv _ _ | .cAdd _ _ | .cSub _ _ | .cAnd _ _ | .cOr _ _ | .cXor _ _ | .cJr _ | .cJalr _ _ | .cLdd _ _ | .cStd _ _ | .cLdw _ _ | .cStw _ _ | .cTend | .cNop | .cBrk | .cBeqz _ _ | .cBnez _ _ | .cJ _ | .cDbnz _ _ | .cLdk _ _ => true
  | _ => false

/-- The BOUND major and LOOPB, which exist only in the bounded profile (R58). -/
def Instr.isBounded (i : Instr) : Bool :=
  match i with
  | .pktemit _ _ | .pktfwd _ | .pktdrop | .signal _ | .parkq _ | .launch _ _ | .loopb _ _ _ => true
  | _ => false

/-- TRET and the PART instructions are supervisor-only (R58). -/
def Instr.isSupervisor (i : Instr) : Bool :=
  match i with
  | .tret | .park _ | .ctxsv _ | .ctxrs _ | .tlbinv _ _ => true
  | _ => false

/-- The vector instructions of R20: majors VEC and VMEM. -/
def Instr.isVector (i : Instr) : Bool :=
  match i with
  | .vadd _ _ _ _ _ | .vsub _ _ _ _ _ | .vmul _ _ _ _ _ | .vfma _ _ _ _ _ | .vdiv _ _ _ _ _ | .vmin _ _ _ _ _ | .vmax _ _ _ _ _ | .vabs _ _ _ _ | .vand _ _ _ _ _ | .vor _ _ _ _ _ | .vxor _ _ _ _ _ | .vshl _ _ _ _ _ | .vshr _ _ _ _ _ | .vsra _ _ _ _ _ | .vadds _ _ _ _ _ | .vsubs _ _ _ _ _ | .vcmpeq _ _ _ _ _ | .vcmplt _ _ _ _ _ | .vcmple _ _ _ _ _ | .vcmpltu _ _ _ _ _ | .vsel _ _ _ _ _ | .vcvt _ _ _ _ _ | .vperm _ _ _ _ _ | .vbcast _ _ _ _ | .vidx _ _ _ | .vmovx _ _ _ _ | .vredadd _ _ _ _ | .vredmin _ _ _ _ | .vredmax _ _ _ _ | .vmand _ _ _ | .vmor _ _ _ | .vmxor _ _ _ | .vmpopc _ _ | .vgen _ _ _ _ _ | .vld _ _ _ _ | .vst _ _ _ _ | .vlds _ _ _ _ _ | .vsts _ _ _ _ _ | .vgath _ _ _ _ _ | .vscat _ _ _ _ _ => true
  | _ => false

/-- The matrix-engine instructions of R20: ENG 0x10 to 0x15 (R54). -/
def Instr.isMatrix (i : Instr) : Bool :=
  match i with
  | .mma _ _ | .mmac _ _ _ | .acld _ _ | .acst _ _ | .acz _ | .accvt _ _ _ => true
  | _ => false

/-- The instruction's length in bytes (R39): 2 for a 16-bit form, 4 otherwise. -/
def Instr.len (i : Instr) : Nat := if i.isHalf then 2 else 4

end Sys2Proof
end

