-- ==== Sys2Proof/Decode.lean ====
section
/-! DEFINITION. The decoder, total on any bits, and the encoder, both from the formats and the
opcode map of R39 to R57. Words are numbers, bit 0 least significant; a field is a quotient and a
remainder. A word that is no instruction is rejected with the ground of R57 that applies. -/

namespace Sys2Proof

/-- Why a word is ILLEGAL (R57). -/
inductive Illegal where
  /-- an unassigned major opcode, quadrant or 16-bit function -/
  | major
  /-- an unassigned function, cond, size or format code -/
  | function
  /-- a field required to be zero is nonzero, or carries an excluded value -/
  | field
  deriving DecidableEq, Repr

/-- Bits [lo + n - 1 : lo] of a word, as a number. -/
def bits (w lo n : Nat) : Nat := w / 2 ^ lo % 2 ^ n

/-- Bits [lo + n - 1 : lo] of a word, as an operand field. -/
def fld (w lo n : Nat) : BitVec n := BitVec.ofNat n (w / 2 ^ lo)

/-- The B-form offset: its low part at `l1` (`n1` bits) and its high part at `l2` (R41). -/
def fld2 (w l1 n1 l2 n2 : Nat) {n : Nat} : BitVec n :=
  BitVec.ofNat n (bits w l1 n1 + 2 ^ n1 * bits w l2 n2)

/-- An instruction whose fields carry no excluded value, or the rejection. -/
def checked (i : Instr) : Except Illegal Instr := if i.wellFormed then .ok i else .error .field

/-- Major OPR (R45), by bits [31:22]. -/
def decodeOPR (w : Nat) : Except Illegal Instr :=
  match bits w 22 10 with
  | 0 => .ok (.add (fld w 7 5) (fld w 12 5) (fld w 17 5))
  | 1 => .ok (.sub (fld w 7 5) (fld w 12 5) (fld w 17 5))
  | 2 => .ok (.mul (fld w 7 5) (fld w 12 5) (fld w 17 5))
  | 3 => .ok (.mulh (fld w 7 5) (fld w 12 5) (fld w 17 5))
  | 4 => .ok (.mulhu (fld w 7 5) (fld w 12 5) (fld w 17 5))
  | 5 => .ok (.div (fld w 7 5) (fld w 12 5) (fld w 17 5))
  | 6 => .ok (.divu (fld w 7 5) (fld w 12 5) (fld w 17 5))
  | 7 => .ok (.rem (fld w 7 5) (fld w 12 5) (fld w 17 5))
  | 8 => .ok (.remu (fld w 7 5) (fld w 12 5) (fld w 17 5))
  | 16 => .ok (.and (fld w 7 5) (fld w 12 5) (fld w 17 5))
  | 17 => .ok (.or (fld w 7 5) (fld w 12 5) (fld w 17 5))
  | 18 => .ok (.xor (fld w 7 5) (fld w 12 5) (fld w 17 5))
  | 19 => .ok (.andn (fld w 7 5) (fld w 12 5) (fld w 17 5))
  | 24 => .ok (.shl (fld w 7 5) (fld w 12 5) (fld w 17 5))
  | 25 => .ok (.shr (fld w 7 5) (fld w 12 5) (fld w 17 5))
  | 26 => .ok (.sra (fld w 7 5) (fld w 12 5) (fld w 17 5))
  | 27 => .ok (.rot (fld w 7 5) (fld w 12 5) (fld w 17 5))
  | 32 => .ok (.min (fld w 7 5) (fld w 12 5) (fld w 17 5))
  | 33 => .ok (.max (fld w 7 5) (fld w 12 5) (fld w 17 5))
  | 34 => .ok (.minu (fld w 7 5) (fld w 12 5) (fld w 17 5))
  | 35 => .ok (.maxu (fld w 7 5) (fld w 12 5) (fld w 17 5))
  | 36 => .ok (.slt (fld w 7 5) (fld w 12 5) (fld w 17 5))
  | 37 => .ok (.sltu (fld w 7 5) (fld w 12 5) (fld w 17 5))
  | 40 => if bits w 17 5 = 0 then .ok (.clz (fld w 7 5) (fld w 12 5)) else .error .field
  | 41 => if bits w 17 5 = 0 then .ok (.ctz (fld w 7 5) (fld w 12 5)) else .error .field
  | 42 => if bits w 17 5 = 0 then .ok (.popc (fld w 7 5) (fld w 12 5)) else .error .field
  | 48 => .ok (.sel (fld w 7 5) (fld w 12 5) (fld w 17 5))
  | 56 => .ok (.bext (fld w 7 5) (fld w 12 5) (fld w 17 5))
  | 57 => .ok (.bins (fld w 7 5) (fld w 12 5) (fld w 17 5))
  | 64 => .ok (.lea (fld w 7 5) (fld w 12 5) (fld w 17 5) (fld w 22 2))
  | 65 => .ok (.lea (fld w 7 5) (fld w 12 5) (fld w 17 5) (fld w 22 2))
  | 66 => .ok (.lea (fld w 7 5) (fld w 12 5) (fld w 17 5) (fld w 22 2))
  | 67 => .ok (.lea (fld w 7 5) (fld w 12 5) (fld w 17 5) (fld w 22 2))
  | _ => .error .function

/-- Major OPI (R45), by bits [19:17]. -/
def decodeOPI (w : Nat) : Except Illegal Instr :=
  match bits w 17 3 with
  | 0 => .ok (.addImm (fld w 7 5) (fld w 12 5) (fld w 20 12))
  | 1 => .ok (.sltImm (fld w 7 5) (fld w 12 5) (fld w 20 12))
  | 2 => .ok (.sltuImm (fld w 7 5) (fld w 12 5) (fld w 20 12))
  | 3 => .ok (.andImm (fld w 7 5) (fld w 12 5) (fld w 20 12))
  | 4 => .ok (.orImm (fld w 7 5) (fld w 12 5) (fld w 20 12))
  | 5 => .ok (.xorImm (fld w 7 5) (fld w 12 5) (fld w 20 12))
  | 6 => if bits w 26 6 = 0 then .ok (.shli (fld w 7 5) (fld w 12 5) (fld w 20 6))
    else if bits w 26 6 = 1 then .ok (.shri (fld w 7 5) (fld w 12 5) (fld w 20 6))
    else if bits w 26 6 = 2 then .ok (.srai (fld w 7 5) (fld w 12 5) (fld w 20 6))
    else if bits w 26 6 = 3 then .ok (.roti (fld w 7 5) (fld w 12 5) (fld w 20 6))
    else .error .function
  | _ => .error .function

/-- Major LIH (R45). -/
def decodeLIH (w : Nat) : Except Illegal Instr :=
  .ok (.lih (fld w 7 5) (fld w 12 20))

/-- Major ADDPC (R45). -/
def decodeADDPC (w : Nat) : Except Illegal Instr :=
  .ok (.addpc (fld w 7 5) (fld w 12 20))

/-- Major BR (R45), by bits [24:22]. -/
def decodeBR (w : Nat) : Except Illegal Instr :=
  match bits w 22 3 with
  | 0 => .ok (.beq (fld w 12 5) (fld w 17 5) (fld2 w 7 5 25 7 : BitVec 12))
  | 1 => .ok (.bne (fld w 12 5) (fld w 17 5) (fld2 w 7 5 25 7 : BitVec 12))
  | 2 => .ok (.blt (fld w 12 5) (fld w 17 5) (fld2 w 7 5 25 7 : BitVec 12))
  | 3 => .ok (.bge (fld w 12 5) (fld w 17 5) (fld2 w 7 5 25 7 : BitVec 12))
  | 4 => .ok (.bltu (fld w 12 5) (fld w 17 5) (fld2 w 7 5 25 7 : BitVec 12))
  | 5 => .ok (.bgeu (fld w 12 5) (fld w 17 5) (fld2 w 7 5 25 7 : BitVec 12))
  | 6 => if bits w 17 5 = 0 then checked (.dbnz (fld w 12 5) (fld2 w 7 5 25 7 : BitVec 12)) else .error .field
  | _ => .error .function

/-- Major JAL (R45). -/
def decodeJAL (w : Nat) : Except Illegal Instr :=
  .ok (.jal (fld w 7 5) (fld w 12 20))

/-- Major JALR (R45), by bits [19:17]. -/
def decodeJALR (w : Nat) : Except Illegal Instr :=
  match bits w 17 3 with
  | 0 => .ok (.jalr (fld w 7 5) (fld w 12 5) (fld w 20 12))
  | _ => .error .function

/-- Major LOAD (R45), by bits [19:17]. -/
def decodeLOAD (w : Nat) : Except Illegal Instr :=
  match bits w 17 3 with
  | 0 => .ok (.ldb (fld w 7 5) (fld w 12 5) (fld w 20 12))
  | 1 => .ok (.ldh (fld w 7 5) (fld w 12 5) (fld w 20 12))
  | 2 => .ok (.ldw (fld w 7 5) (fld w 12 5) (fld w 20 12))
  | 3 => .ok (.ldd (fld w 7 5) (fld w 12 5) (fld w 20 12))
  | 4 => .ok (.ldbu (fld w 7 5) (fld w 12 5) (fld w 20 12))
  | 5 => .ok (.ldhu (fld w 7 5) (fld w 12 5) (fld w 20 12))
  | 6 => .ok (.ldwu (fld w 7 5) (fld w 12 5) (fld w 20 12))
  | _ => .error .function

/-- Major STORE (R45), by bits [19:17]. -/
def decodeSTORE (w : Nat) : Except Illegal Instr :=
  match bits w 17 3 with
  | 0 => .ok (.stb (fld w 7 5) (fld w 12 5) (fld w 20 12))
  | 1 => .ok (.sth (fld w 7 5) (fld w 12 5) (fld w 20 12))
  | 2 => .ok (.stw (fld w 7 5) (fld w 12 5) (fld w 20 12))
  | 3 => .ok (.std (fld w 7 5) (fld w 12 5) (fld w 20 12))
  | _ => .error .function

/-- Major OPK (R45), by bits [31:28]. -/
def decodeOPK (w : Nat) : Except Illegal Instr :=
  match bits w 28 4 with
  | 0 => if bits w 12 8 = 0 then .ok (.ldk (fld w 7 5) (fld w 20 8)) else .error .field
  | 1 => if bits w 17 3 = 0 then .ok (.addK (fld w 7 5) (fld w 12 5) (fld w 20 8)) else .error .field
  | 2 => if bits w 17 3 = 0 then .ok (.subK (fld w 7 5) (fld w 12 5) (fld w 20 8)) else .error .field
  | 3 => if bits w 17 3 = 0 then .ok (.mulK (fld w 7 5) (fld w 12 5) (fld w 20 8)) else .error .field
  | 4 => if bits w 17 3 = 0 then .ok (.andK (fld w 7 5) (fld w 12 5) (fld w 20 8)) else .error .field
  | 5 => if bits w 17 3 = 0 then .ok (.orK (fld w 7 5) (fld w 12 5) (fld w 20 8)) else .error .field
  | 6 => if bits w 17 3 = 0 then .ok (.xorK (fld w 7 5) (fld w 12 5) (fld w 20 8)) else .error .field
  | 7 => if bits w 9 11 = 0 then .ok (.ldxK (fld w 7 2) (fld w 20 8)) else .error .field
  | 8 => if bits w 18 2 = 0 then .ok (.faddK (fld w 7 5) (fld w 12 5) (fld w 17 1) (fld w 20 8)) else .error .field
  | 9 => if bits w 18 2 = 0 then .ok (.fmulK (fld w 7 5) (fld w 12 5) (fld w 17 1) (fld w 20 8)) else .error .field
  | 10 => if bits w 18 2 = 0 then .ok (.ffmaK (fld w 7 5) (fld w 12 5) (fld w 17 1) (fld w 20 8)) else .error .field
  | 11 => if bits w 18 2 = 0 then .ok (.fsubK (fld w 7 5) (fld w 12 5) (fld w 17 1) (fld w 20 8)) else .error .field
  | _ => .error .function

/-- Major EXT (R45), by bits [19:17]. -/
def decodeEXT (w : Nat) : Except Illegal Instr :=
  match bits w 17 3 with
  | 0 => if bits w 9 3 = 0 then .ok (.ldx (fld w 7 2) (fld w 12 5) (fld w 20 12)) else .error .field
  | 1 => if bits w 9 3 = 0 then .ok (.stx (fld w 7 2) (fld w 12 5) (fld w 20 12)) else .error .field
  | 2 => if bits w 9 3 = 0 ∧ bits w 20 12 = 0 then .ok (.mte (fld w 7 2) (fld w 12 5)) else .error .field
  | 3 => if bits w 14 3 = 0 ∧ bits w 20 12 = 0 then .ok (.mfe (fld w 7 5) (fld w 12 2)) else .error .field
  | _ => .error .function

/-- Major FLI (R45). -/
def decodeFLI (w : Nat) : Except Illegal Instr :=
  .ok (.fli (fld w 7 5) (fld w 12 20))

/-- Major FADDI (R45). -/
def decodeFADDI (w : Nat) : Except Illegal Instr :=
  .ok (.faddi (fld w 7 5) (fld w 12 20))

/-- Major FMULI (R45). -/
def decodeFMULI (w : Nat) : Except Illegal Instr :=
  .ok (.fmuli (fld w 7 5) (fld w 12 20))

/-- Major OPF (R45), by bits [31:28]. -/
def decodeOPF (w : Nat) : Except Illegal Instr :=
  match bits w 28 4 with
  | 0 => checked (.fadd (fld w 7 5) (fld w 12 5) (fld w 17 5) (fld w 22 3) (fld w 25 3))
  | 1 => checked (.fsub (fld w 7 5) (fld w 12 5) (fld w 17 5) (fld w 22 3) (fld w 25 3))
  | 2 => checked (.fmul (fld w 7 5) (fld w 12 5) (fld w 17 5) (fld w 22 3) (fld w 25 3))
  | 3 => checked (.fdiv (fld w 7 5) (fld w 12 5) (fld w 17 5) (fld w 22 3) (fld w 25 3))
  | 4 => if bits w 17 5 = 0 then checked (.fsqrt (fld w 7 5) (fld w 12 5) (fld w 22 3) (fld w 25 3)) else .error .field
  | 5 => if bits w 25 3 = 0 then checked (.fmin (fld w 7 5) (fld w 12 5) (fld w 17 5) (fld w 22 3)) else .error .field
  | 6 => if bits w 25 3 = 0 then checked (.fmax (fld w 7 5) (fld w 12 5) (fld w 17 5) (fld w 22 3)) else .error .field
  | 7 => if bits w 27 1 = 0 then checked (.fcmp (fld w 7 5) (fld w 12 5) (fld w 17 5) (fld w 22 3) (fld w 25 2)) else .error .field
  | 8 => if bits w 17 5 = 0 ∧ bits w 25 3 = 0 then checked (.fclass (fld w 7 5) (fld w 12 5) (fld w 22 3)) else .error .field
  | 9 => if bits w 25 3 = 0 then checked (.fsgn (fld w 7 5) (fld w 12 5) (fld w 17 5) (fld w 22 3))
    else if bits w 25 3 = 1 then checked (.fsgnn (fld w 7 5) (fld w 12 5) (fld w 17 5) (fld w 22 3))
    else if bits w 25 3 = 2 then checked (.fsgnx (fld w 7 5) (fld w 12 5) (fld w 17 5) (fld w 22 3))
    else .error .function
  | 10 => if bits w 20 2 = 0 then checked (.fcvt (fld w 7 5) (fld w 12 5) (fld w 17 3) (fld w 22 3) (fld w 25 3)) else .error .field
  | _ => .error .function

/-- Major FMA (R45), by bits [28:28]. -/
def decodeFMA (w : Nat) : Except Illegal Instr :=
  match bits w 28 1 with
  | 0 => .ok (.ffma (fld w 7 5) (fld w 12 5) (fld w 17 5) (fld w 22 5) (fld w 27 1) (fld w 29 3))
  | _ => .error .function

/-- Major SYS (R45), by bits [19:17]. -/
def decodeSYS (w : Nat) : Except Illegal Instr :=
  match bits w 17 3 with
  | 0 => if bits w 12 5 = 0 then .ok (.csrr (fld w 7 5) (fld w 20 12)) else .error .field
  | 1 => if bits w 7 5 = 0 then .ok (.csrw (fld w 12 5) (fld w 20 12)) else .error .field
  | 2 => if bits w 7 10 = 0 then .ok (.svc (fld w 20 12)) else .error .field
  | 3 => if bits w 7 10 = 0 ∧ bits w 20 12 = 0 then .ok (.tret) else .error .field
  | 4 => if bits w 7 10 = 0 ∧ bits w 20 12 = 0 then .ok (.ifence) else .error .field
  | 5 => if bits w 7 10 = 0 then .ok (.brk (fld w 20 12)) else .error .field
  | 6 => if bits w 7 10 = 0 then .ok (.spt (fld w 20 12)) else .error .field
  | 7 => if bits w 7 10 = 0 ∧ bits w 20 12 = 0 then .ok (.nop) else .error .field
  | _ => .error .function

/-- Major TASK (R45), by bits [31:25]. -/
def decodeTASK (w : Nat) : Except Illegal Instr :=
  match bits w 25 7 with
  | 0 => if bits w 7 5 = 0 ∧ bits w 24 1 = 0 then .ok (.send (fld w 12 5) (fld w 17 5) (fld w 22 2)) else .error .field
  | 1 => if bits w 22 3 = 0 then .ok (.spawn (fld w 7 5) (fld w 12 5) (fld w 17 5)) else .error .field
  | 2 => if bits w 7 18 = 0 then .ok (.tend) else .error .field
  | 3 => if bits w 7 5 = 0 ∧ bits w 17 8 = 0 then .ok (.claim (fld w 12 5)) else .error .field
  | 4 => if bits w 7 18 = 0 then .ok (.unclaim) else .error .field
  | 5 => if bits w 7 5 = 0 ∧ bits w 22 3 = 0 then .ok (.dcset (fld w 12 5) (fld w 17 5)) else .error .field
  | 6 => if bits w 7 5 = 0 ∧ bits w 17 8 = 0 then .ok (.dcdec (fld w 12 5)) else .error .field
  | 7 => if bits w 7 5 = 0 ∧ bits w 22 3 = 0 then .ok (.tagarmAny (fld w 12 5) (fld w 17 5))
    else if bits w 7 5 = 0 ∧ bits w 22 3 = 1 then .ok (.tagarmAll (fld w 12 5) (fld w 17 5))
    else .error .function
  | 8 => if bits w 7 5 = 0 ∧ bits w 22 3 = 0 then .ok (.bari (fld w 12 5) (fld w 17 5)) else .error .field
  | 9 => if bits w 7 5 = 0 ∧ bits w 22 3 = 0 then .ok (.barv (fld w 12 5) (fld w 17 5)) else .error .field
  | 10 => if bits w 7 10 = 0 ∧ bits w 22 3 = 0 then .ok (.bard (fld w 17 5)) else .error .field
  | 11 => if bits w 7 10 = 0 ∧ bits w 22 3 = 0 then .ok (.barj (fld w 17 5)) else .error .field
  | 12 => if bits w 12 5 = 0 ∧ bits w 22 3 = 0 then .ok (.barq (fld w 7 5) (fld w 17 5)) else .error .field
  | _ => .error .function

/-- Major ATOM (R45), by bits [31:26]. -/
def decodeATOM (w : Nat) : Except Illegal Instr :=
  match bits w 26 6 with
  | 0 => if bits w 25 1 = 1 then .ok (.amoadd (fld w 7 5) (fld w 12 5) (fld w 17 5) (fld w 22 2) (fld w 24 1)) else .error .field
  | 1 => if bits w 25 1 = 1 then .ok (.amoand (fld w 7 5) (fld w 12 5) (fld w 17 5) (fld w 22 2) (fld w 24 1)) else .error .field
  | 2 => if bits w 25 1 = 1 then .ok (.amoor (fld w 7 5) (fld w 12 5) (fld w 17 5) (fld w 22 2) (fld w 24 1)) else .error .field
  | 3 => if bits w 25 1 = 1 then .ok (.amoxor (fld w 7 5) (fld w 12 5) (fld w 17 5) (fld w 22 2) (fld w 24 1)) else .error .field
  | 4 => if bits w 25 1 = 1 then .ok (.amomin (fld w 7 5) (fld w 12 5) (fld w 17 5) (fld w 22 2) (fld w 24 1)) else .error .field
  | 5 => if bits w 25 1 = 1 then .ok (.amomax (fld w 7 5) (fld w 12 5) (fld w 17 5) (fld w 22 2) (fld w 24 1)) else .error .field
  | 6 => if bits w 25 1 = 1 then .ok (.amominu (fld w 7 5) (fld w 12 5) (fld w 17 5) (fld w 22 2) (fld w 24 1)) else .error .field
  | 7 => if bits w 25 1 = 1 then .ok (.amomaxu (fld w 7 5) (fld w 12 5) (fld w 17 5) (fld w 22 2) (fld w 24 1)) else .error .field
  | 8 => if bits w 25 1 = 1 then .ok (.amoswp (fld w 7 5) (fld w 12 5) (fld w 17 5) (fld w 22 2) (fld w 24 1)) else .error .field
  | 9 => if bits w 25 1 = 1 then .ok (.cas (fld w 7 5) (fld w 12 5) (fld w 17 5) (fld w 22 2) (fld w 24 1)) else .error .field
  | 10 => if bits w 24 2 = 3 then checked (.cas2 (fld w 7 5) (fld w 12 5) (fld w 17 5) (fld w 22 2)) else .error .field
  | 11 => if bits w 7 5 = 0 ∧ bits w 22 1 = 0 ∧ bits w 25 1 = 1 then .ok (.redadd (fld w 12 5) (fld w 17 5) (fld w 23 1) (fld w 24 1)) else .error .field
  | 12 => if bits w 17 7 = 32 then .ok (.ldacq (fld w 7 5) (fld w 12 5) (fld w 24 2)) else .error .field
  | 13 => if bits w 7 5 = 0 ∧ bits w 22 2 = 2 then .ok (.strel (fld w 12 5) (fld w 17 5) (fld w 24 2)) else .error .field
  | _ => .error .function

/-- Major ORDER (R45), by bits [31:25]. -/
def decodeORDER (w : Nat) : Except Illegal Instr :=
  match bits w 25 7 with
  | 0 => if bits w 9 16 = 0 then .ok (.fence (fld w 7 2))
    else if bits w 9 16 = 8192 then .ok (.fenceAcq (fld w 7 2))
    else if bits w 9 16 = 16384 then .ok (.fenceRel (fld w 7 2))
    else .error .function
  | 1 => if bits w 9 3 = 0 ∧ bits w 22 3 = 0 then checked (.fencex (fld w 7 2) (fld w 12 5) (fld w 17 5)) else .error .field
  | 8 => if bits w 7 5 = 0 ∧ bits w 22 3 = 0 then .ok (.sflush (fld w 12 5) (fld w 17 5)) else .error .field
  | 9 => if bits w 7 5 = 0 ∧ bits w 22 3 = 0 then .ok (.sinv (fld w 12 5) (fld w 17 5)) else .error .field
  | 10 => if bits w 7 5 = 0 ∧ bits w 22 3 = 0 then .ok (.spf (fld w 12 5) (fld w 17 5)) else .error .field
  | 16 => if bits w 22 3 = 0 then .ok (.monarm (fld w 7 5) (fld w 12 5) (fld w 17 5)) else .error .field
  | 17 => if bits w 7 5 = 0 ∧ bits w 17 8 = 0 then .ok (.mondis (fld w 12 5)) else .error .field
  | _ => .error .function

/-- Major VEC (R45), by bits [31:25]. -/
def decodeVEC (w : Nat) : Except Illegal Instr :=
  match bits w 25 7 with
  | 0 => .ok (.vadd (fld w 7 4) (fld w 11 4) (fld w 15 4) (fld w 19 3) (fld w 22 3))
  | 1 => .ok (.vsub (fld w 7 4) (fld w 11 4) (fld w 15 4) (fld w 19 3) (fld w 22 3))
  | 2 => .ok (.vmul (fld w 7 4) (fld w 11 4) (fld w 15 4) (fld w 19 3) (fld w 22 3))
  | 3 => checked (.vfma (fld w 7 4) (fld w 11 4) (fld w 15 4) (fld w 19 3) (fld w 22 3))
  | 4 => checked (.vdiv (fld w 7 4) (fld w 11 4) (fld w 15 4) (fld w 19 3) (fld w 22 3))
  | 5 => .ok (.vmin (fld w 7 4) (fld w 11 4) (fld w 15 4) (fld w 19 3) (fld w 22 3))
  | 6 => .ok (.vmax (fld w 7 4) (fld w 11 4) (fld w 15 4) (fld w 19 3) (fld w 22 3))
  | 7 => if bits w 15 4 = 0 then .ok (.vabs (fld w 7 4) (fld w 11 4) (fld w 19 3) (fld w 22 3)) else .error .field
  | 8 => .ok (.vand (fld w 7 4) (fld w 11 4) (fld w 15 4) (fld w 19 3) (fld w 22 3))
  | 9 => .ok (.vor (fld w 7 4) (fld w 11 4) (fld w 15 4) (fld w 19 3) (fld w 22 3))
  | 10 => .ok (.vxor (fld w 7 4) (fld w 11 4) (fld w 15 4) (fld w 19 3) (fld w 22 3))
  | 11 => checked (.vshl (fld w 7 4) (fld w 11 4) (fld w 15 4) (fld w 19 3) (fld w 22 3))
  | 12 => checked (.vshr (fld w 7 4) (fld w 11 4) (fld w 15 4) (fld w 19 3) (fld w 22 3))
  | 13 => checked (.vsra (fld w 7 4) (fld w 11 4) (fld w 15 4) (fld w 19 3) (fld w 22 3))
  | 14 => checked (.vadds (fld w 7 4) (fld w 11 4) (fld w 15 4) (fld w 19 3) (fld w 22 3))
  | 15 => checked (.vsubs (fld w 7 4) (fld w 11 4) (fld w 15 4) (fld w 19 3) (fld w 22 3))
  | 16 => if bits w 10 1 = 0 then .ok (.vcmpeq (fld w 7 3) (fld w 11 4) (fld w 15 4) (fld w 19 3) (fld w 22 3)) else .error .field
  | 17 => if bits w 10 1 = 0 then .ok (.vcmplt (fld w 7 3) (fld w 11 4) (fld w 15 4) (fld w 19 3) (fld w 22 3)) else .error .field
  | 18 => if bits w 10 1 = 0 then .ok (.vcmple (fld w 7 3) (fld w 11 4) (fld w 15 4) (fld w 19 3) (fld w 22 3)) else .error .field
  | 19 => if bits w 10 1 = 0 then checked (.vcmpltu (fld w 7 3) (fld w 11 4) (fld w 15 4) (fld w 19 3) (fld w 22 3)) else .error .field
  | 20 => .ok (.vsel (fld w 7 4) (fld w 11 4) (fld w 15 4) (fld w 19 3) (fld w 22 3))
  | 24 => if bits w 18 1 = 0 then checked (.vcvt (fld w 7 4) (fld w 11 4) (fld w 15 3) (fld w 19 3) (fld w 22 3)) else .error .field
  | 25 => .ok (.vperm (fld w 7 4) (fld w 11 4) (fld w 15 4) (fld w 19 3) (fld w 22 3))
  | 26 => if bits w 15 4 = 0 then .ok (.vbcast (fld w 7 4) (fld w 11 4) (fld w 19 3) (fld w 22 3)) else .error .field
  | 27 => if bits w 11 8 = 0 then checked (.vidx (fld w 7 4) (fld w 19 3) (fld w 22 3)) else .error .field
  | 28 => if bits w 19 3 = 0 then .ok (.vmovx (fld w 7 4) (fld w 11 4) (fld w 15 4) (fld w 22 3)) else .error .field
  | 32 => if bits w 15 4 = 0 then .ok (.vredadd (fld w 7 4) (fld w 11 4) (fld w 19 3) (fld w 22 3)) else .error .field
  | 33 => if bits w 15 4 = 0 then .ok (.vredmin (fld w 7 4) (fld w 11 4) (fld w 19 3) (fld w 22 3)) else .error .field
  | 34 => if bits w 15 4 = 0 then .ok (.vredmax (fld w 7 4) (fld w 11 4) (fld w 19 3) (fld w 22 3)) else .error .field
  | 40 => if bits w 10 1 = 0 ∧ bits w 14 1 = 0 ∧ bits w 18 7 = 0 then .ok (.vmand (fld w 7 3) (fld w 11 3) (fld w 15 3)) else .error .field
  | 41 => if bits w 10 1 = 0 ∧ bits w 14 1 = 0 ∧ bits w 18 7 = 0 then .ok (.vmor (fld w 7 3) (fld w 11 3) (fld w 15 3)) else .error .field
  | 42 => if bits w 10 1 = 0 ∧ bits w 14 1 = 0 ∧ bits w 18 7 = 0 then .ok (.vmxor (fld w 7 3) (fld w 11 3) (fld w 15 3)) else .error .field
  | 43 => if bits w 14 11 = 0 then .ok (.vmpopc (fld w 7 4) (fld w 11 3)) else .error .field
  | 48 => if bits w 14 1 = 0 then .ok (.vgen (fld w 7 4) (fld w 11 3) (fld w 15 4) (fld w 19 3) (fld w 22 3)) else .error .field
  | _ => .error .function

/-- Major VMEM (R45), by bits [31:25]. -/
def decodeVMEM (w : Nat) : Except Illegal Instr :=
  match bits w 25 7 with
  | 0 => if bits w 15 4 = 0 then .ok (.vld (fld w 7 4) (fld w 11 4) (fld w 19 3) (fld w 22 3)) else .error .field
  | 1 => if bits w 15 4 = 0 then .ok (.vst (fld w 7 4) (fld w 11 4) (fld w 19 3) (fld w 22 3)) else .error .field
  | 2 => .ok (.vlds (fld w 7 4) (fld w 11 4) (fld w 15 4) (fld w 19 3) (fld w 22 3))
  | 3 => .ok (.vsts (fld w 7 4) (fld w 11 4) (fld w 15 4) (fld w 19 3) (fld w 22 3))
  | 4 => .ok (.vgath (fld w 7 4) (fld w 11 4) (fld w 15 4) (fld w 19 3) (fld w 22 3))
  | 5 => .ok (.vscat (fld w 7 4) (fld w 11 4) (fld w 15 4) (fld w 19 3) (fld w 22 3))
  | _ => .error .function

/-- Major ENG (R45), by bits [31:25]. -/
def decodeENG (w : Nat) : Except Illegal Instr :=
  match bits w 25 7 with
  | 0 => if bits w 7 5 = 0 ∧ bits w 24 1 = 0 then .ok (.copy (fld w 12 5) (fld w 17 5) (fld w 22 2)) else .error .field
  | 1 => if bits w 17 8 = 0 then .ok (.cshp (fld w 7 5) (fld w 12 5)) else .error .field
  | 2 => if bits w 17 8 = 0 then .ok (.tagtst (fld w 7 5) (fld w 12 5)) else .error .field
  | 3 => if bits w 17 8 = 0 then .ok (.tagff (fld w 7 5) (fld w 12 5)) else .error .field
  | 4 => if bits w 7 5 = 0 ∧ bits w 17 8 = 0 then .ok (.tagclr (fld w 12 5)) else .error .field
  | 16 => if bits w 9 13 = 0 ∧ bits w 24 1 = 0 then .ok (.mma (fld w 7 2) (fld w 22 2)) else .error .field
  | 17 => if bits w 9 8 = 0 ∧ bits w 19 3 = 0 ∧ bits w 24 1 = 0 then .ok (.mmac (fld w 7 2) (fld w 17 2) (fld w 22 2)) else .error .field
  | 18 => if bits w 9 3 = 0 ∧ bits w 17 8 = 0 then .ok (.acld (fld w 7 2) (fld w 12 5)) else .error .field
  | 19 => if bits w 9 3 = 0 ∧ bits w 17 8 = 0 then .ok (.acst (fld w 7 2) (fld w 12 5)) else .error .field
  | 20 => if bits w 9 16 = 0 then .ok (.acz (fld w 7 2)) else .error .field
  | 21 => if bits w 9 3 = 0 ∧ bits w 22 3 = 0 then .ok (.accvt (fld w 7 2) (fld w 12 5) (fld w 17 5)) else .error .field
  | 24 => if bits w 7 5 = 0 ∧ bits w 20 5 = 0 then .ok (.gset (fld w 12 5) (fld w 17 3)) else .error .field
  | 25 => if bits w 7 5 = 0 ∧ bits w 20 5 = 0 then .ok (.gget (fld w 12 5) (fld w 17 3)) else .error .field
  | 26 => if bits w 20 5 = 0 then .ok (.gdraw (fld w 7 5) (fld w 12 5) (fld w 17 3)) else .error .field
  | 32 => if bits w 7 5 = 0 ∧ bits w 20 5 = 0 then .ok (.grdef (fld w 12 5) (fld w 17 3)) else .error .field
  | 33 => if bits w 7 5 = 0 ∧ bits w 20 5 = 0 then .ok (.grbc (fld w 12 5) (fld w 17 3)) else .error .field
  | 34 => if bits w 7 10 = 0 ∧ bits w 20 2 = 0 ∧ bits w 24 1 = 0 then .ok (.grstep (fld w 17 3) (fld w 22 2)) else .error .field
  | 35 => if bits w 20 5 = 0 then .ok (.ldhs (fld w 7 5) (fld w 12 5) (fld w 17 3)) else .error .field
  | 36 => if bits w 20 5 = 0 then .ok (.grq (fld w 7 5) (fld w 12 5) (fld w 17 3)) else .error .field
  | _ => .error .function

/-- Major PART (R45), by bits [31:25]. -/
def decodePART (w : Nat) : Except Illegal Instr :=
  match bits w 25 7 with
  | 0 => if bits w 7 5 = 0 ∧ bits w 17 8 = 0 then .ok (.park (fld w 12 5)) else .error .field
  | 1 => if bits w 7 5 = 0 ∧ bits w 17 8 = 0 then .ok (.ctxsv (fld w 12 5)) else .error .field
  | 2 => if bits w 7 5 = 0 ∧ bits w 17 8 = 0 then .ok (.ctxrs (fld w 12 5)) else .error .field
  | 3 => if bits w 7 5 = 0 ∧ bits w 22 3 = 0 then .ok (.tlbinv (fld w 12 5) (fld w 17 5)) else .error .field
  | _ => .error .function

/-- Major BOUND (R45), by bits [31:25]. -/
def decodeBOUND (w : Nat) : Except Illegal Instr :=
  match bits w 25 7 with
  | 0 => if bits w 7 5 = 0 ∧ bits w 22 3 = 0 then .ok (.pktemit (fld w 12 5) (fld w 17 5)) else .error .field
  | 1 => if bits w 7 5 = 0 ∧ bits w 17 8 = 0 then .ok (.pktfwd (fld w 12 5)) else .error .field
  | 2 => if bits w 7 18 = 0 then .ok (.pktdrop) else .error .field
  | 8 => if bits w 7 5 = 0 ∧ bits w 17 8 = 0 then .ok (.signal (fld w 12 5)) else .error .field
  | 9 => if bits w 7 5 = 0 ∧ bits w 17 8 = 0 then .ok (.parkq (fld w 12 5)) else .error .field
  | 10 => if bits w 7 5 = 0 ∧ bits w 22 3 = 0 then .ok (.launch (fld w 12 5) (fld w 17 5)) else .error .field
  | _ => .error .function

/-- Major LOOPB (R45). -/
def decodeLOOPB (w : Nat) : Except Illegal Instr :=
  checked (.loopb (fld w 7 5) (fld w 12 8) (fld w 20 12))

/-- A 32-bit word, by its major opcode (R45). -/
def decode32 (w : Nat) : Except Illegal Instr :=
  match bits w 0 7 with
  | 3 => decodeOPR w
  | 7 => decodeOPI w
  | 11 => decodeLIH w
  | 15 => decodeADDPC w
  | 19 => decodeBR w
  | 23 => decodeJAL w
  | 27 => decodeJALR w
  | 31 => decodeLOAD w
  | 35 => decodeSTORE w
  | 39 => decodeOPK w
  | 43 => decodeEXT w
  | 47 => decodeFLI w
  | 51 => decodeFADDI w
  | 55 => decodeFMULI w
  | 59 => decodeOPF w
  | 63 => decodeFMA w
  | 67 => decodeSYS w
  | 71 => decodeTASK w
  | 75 => decodeATOM w
  | 79 => decodeORDER w
  | 83 => decodeVEC w
  | 87 => decodeVMEM w
  | 91 => decodeENG w
  | 95 => decodePART w
  | 99 => decodeBOUND w
  | 103 => decodeLOOPB w
  | _ => .error .major

/-- Quadrant 0b00, the CI form (R43, R44). -/
def decodeCI (w : Nat) : Except Illegal Instr :=
  match bits w 13 3 with
  | 0 => checked (.cAddi (fld w 2 5) (fld w 7 6))
  | 1 => checked (.cLi (fld w 2 5) (fld w 7 6))
  | 2 => checked (.cShli (fld w 2 5) (fld w 7 6))
  | 3 => checked (.cShri (fld w 2 5) (fld w 7 6))
  | 4 => checked (.cSrai (fld w 2 5) (fld w 7 6))
  | 5 => checked (.cAndi (fld w 2 5) (fld w 7 6))
  | 6 => .ok (.cLddSp (fld w 2 5) (fld w 7 6))
  | 7 => .ok (.cStdSp (fld w 2 5) (fld w 7 6))
  | _ => .error .function

/-- Quadrant 0b01, the CR form (R43, R44). -/
def decodeCR (w : Nat) : Except Illegal Instr :=
  match bits w 12 4 with
  | 0 => checked (.cMv (fld w 2 5) (fld w 7 5))
  | 1 => checked (.cAdd (fld w 2 5) (fld w 7 5))
  | 2 => checked (.cSub (fld w 2 5) (fld w 7 5))
  | 3 => checked (.cAnd (fld w 2 5) (fld w 7 5))
  | 4 => checked (.cOr (fld w 2 5) (fld w 7 5))
  | 5 => checked (.cXor (fld w 2 5) (fld w 7 5))
  | 6 => if bits w 7 5 = 0 then .ok (.cJr (fld w 2 5)) else .error .field
  | 7 => checked (.cJalr (fld w 2 5) (fld w 7 5))
  | 8 => .ok (.cLdd (fld w 2 5) (fld w 7 5))
  | 9 => .ok (.cStd (fld w 2 5) (fld w 7 5))
  | 10 => .ok (.cLdw (fld w 2 5) (fld w 7 5))
  | 11 => .ok (.cStw (fld w 2 5) (fld w 7 5))
  | 12 => if bits w 2 10 = 0 then .ok (.cTend) else .error .field
  | 14 => if bits w 2 10 = 0 then .ok (.cNop) else .error .field
  | 15 => if bits w 2 10 = 0 then .ok (.cBrk) else .error .field
  | _ => .error .function

/-- Quadrant 0b10: the CB forms, and the CK form where bit 15 is set (R43, R44). -/
def decodeCB (w : Nat) : Except Illegal Instr :=
  match bits w 13 3 with
  | 0 => .ok (.cBeqz (fld w 2 5) (fld w 7 6))
  | 1 => .ok (.cBnez (fld w 2 5) (fld w 7 6))
  | 2 => .ok (.cJ (fld w 2 11))
  | 3 => checked (.cDbnz (fld w 2 5) (fld w 7 6))
  | _ => checked (.cLdk (fld w 2 5) (fld w 7 8))

/-- A 16-bit instruction, by its quadrant (R43). -/
def decode16 (w : Nat) : Except Illegal Instr :=
  match bits w 0 2 with
  | 0 => decodeCI w
  | 1 => decodeCR w
  | 2 => decodeCB w
  | _ => .error .major

/-- The length rule of R39: bits [1:0] = 0b11 begin a 32-bit instruction; any other value is a
complete 16-bit instruction. The first halfword stands in the low bits. -/
def decode (w : Nat) : Except Illegal Instr :=
  if bits w 0 2 = 3 then decode32 (w % 2 ^ 32) else decode16 (w % 2 ^ 16)

/-- The instruction at the head of a run of bytes, lowest address first (R4, R39), and the bytes
after it. Too few bytes hold no instruction. -/
def decodeBytes : List Byte → Option (Except Illegal Instr × List Byte)
  | b0 :: b1 :: rest =>
    let h := b0.toNat + 2 ^ 8 * b1.toNat
    if bits h 0 2 = 3 then
      match rest with
      | b2 :: b3 :: rest' => some (decode (h + 2 ^ 16 * b2.toNat + 2 ^ 24 * b3.toNat), rest')
      | _ => none
    else some (decode h, rest)
  | _ => none

/-- A word of `n` bytes, lowest address first (R4). -/
def wordBytes (w : Nat) : Nat → List Byte
  | 0 => []
  | n + 1 => BitVec.ofNat 8 w :: wordBytes (w / 2 ^ 8) n

/-- What the decoder reads from an instruction of `nbits` bits whose bits are `w`, laid out as the
hardware stores it. -/
def decodeTableWord (nbits w : Nat) : Option Instr :=
  match decodeBytes (wordBytes (w % 2 ^ nbits) 4) with
  | some (.ok i, _) => some i
  | _ => none

/-- A word with the field value `v` placed at bit `lo` above the bits of `rest`. -/
def put (lo v rest : Nat) : Nat := 2 ^ lo * v + rest

/-- The words of an instruction, by the same formats. An event row has none. -/
def encode (i : Instr) : Nat :=
  match i with
  | .add d a b => put 7 d.toNat (put 12 a.toNat (put 17 b.toNat 3))
  | .sub d a b => put 7 d.toNat (put 12 a.toNat (put 17 b.toNat 4194307))
  | .mul d a b => put 7 d.toNat (put 12 a.toNat (put 17 b.toNat 8388611))
  | .mulh d a b => put 7 d.toNat (put 12 a.toNat (put 17 b.toNat 12582915))
  | .mulhu d a b => put 7 d.toNat (put 12 a.toNat (put 17 b.toNat 16777219))
  | .div d a b => put 7 d.toNat (put 12 a.toNat (put 17 b.toNat 20971523))
  | .divu d a b => put 7 d.toNat (put 12 a.toNat (put 17 b.toNat 25165827))
  | .rem d a b => put 7 d.toNat (put 12 a.toNat (put 17 b.toNat 29360131))
  | .remu d a b => put 7 d.toNat (put 12 a.toNat (put 17 b.toNat 33554435))
  | .and d a b => put 7 d.toNat (put 12 a.toNat (put 17 b.toNat 67108867))
  | .or d a b => put 7 d.toNat (put 12 a.toNat (put 17 b.toNat 71303171))
  | .xor d a b => put 7 d.toNat (put 12 a.toNat (put 17 b.toNat 75497475))
  | .andn d a b => put 7 d.toNat (put 12 a.toNat (put 17 b.toNat 79691779))
  | .shl d a b => put 7 d.toNat (put 12 a.toNat (put 17 b.toNat 100663299))
  | .shr d a b => put 7 d.toNat (put 12 a.toNat (put 17 b.toNat 104857603))
  | .sra d a b => put 7 d.toNat (put 12 a.toNat (put 17 b.toNat 109051907))
  | .rot d a b => put 7 d.toNat (put 12 a.toNat (put 17 b.toNat 113246211))
  | .min d a b => put 7 d.toNat (put 12 a.toNat (put 17 b.toNat 134217731))
  | .max d a b => put 7 d.toNat (put 12 a.toNat (put 17 b.toNat 138412035))
  | .minu d a b => put 7 d.toNat (put 12 a.toNat (put 17 b.toNat 142606339))
  | .maxu d a b => put 7 d.toNat (put 12 a.toNat (put 17 b.toNat 146800643))
  | .slt d a b => put 7 d.toNat (put 12 a.toNat (put 17 b.toNat 150994947))
  | .sltu d a b => put 7 d.toNat (put 12 a.toNat (put 17 b.toNat 155189251))
  | .clz d a => put 7 d.toNat (put 12 a.toNat 167772163)
  | .ctz d a => put 7 d.toNat (put 12 a.toNat 171966467)
  | .popc d a => put 7 d.toNat (put 12 a.toNat 176160771)
  | .sel d a b => put 7 d.toNat (put 12 a.toNat (put 17 b.toNat 201326595))
  | .bext d a b => put 7 d.toNat (put 12 a.toNat (put 17 b.toNat 234881027))
  | .bins d a b => put 7 d.toNat (put 12 a.toNat (put 17 b.toNat 239075331))
  | .lea d a b s => put 7 d.toNat (put 12 a.toNat (put 17 b.toNat (put 22 s.toNat 268435459)))
  | .addImm d a i => put 7 d.toNat (put 12 a.toNat (put 20 i.toNat 7))
  | .sltImm d a i => put 7 d.toNat (put 12 a.toNat (put 20 i.toNat 131079))
  | .sltuImm d a i => put 7 d.toNat (put 12 a.toNat (put 20 i.toNat 262151))
  | .andImm d a i => put 7 d.toNat (put 12 a.toNat (put 20 i.toNat 393223))
  | .orImm d a i => put 7 d.toNat (put 12 a.toNat (put 20 i.toNat 524295))
  | .xorImm d a i => put 7 d.toNat (put 12 a.toNat (put 20 i.toNat 655367))
  | .shli d a n => put 7 d.toNat (put 12 a.toNat (put 20 n.toNat 786439))
  | .shri d a n => put 7 d.toNat (put 12 a.toNat (put 20 n.toNat 67895303))
  | .srai d a n => put 7 d.toNat (put 12 a.toNat (put 20 n.toNat 135004167))
  | .roti d a n => put 7 d.toNat (put 12 a.toNat (put 20 n.toNat 202113031))
  | .lih d i => put 7 d.toNat (put 12 i.toNat 11)
  | .addpc d i => put 7 d.toNat (put 12 i.toNat 15)
  | .beq a b off => put 12 a.toNat (put 17 b.toNat (put 7 (off.toNat % 2 ^ 5) (put 25 (off.toNat / 2 ^ 5) 19)))
  | .bne a b off => put 12 a.toNat (put 17 b.toNat (put 7 (off.toNat % 2 ^ 5) (put 25 (off.toNat / 2 ^ 5) 4194323)))
  | .blt a b off => put 12 a.toNat (put 17 b.toNat (put 7 (off.toNat % 2 ^ 5) (put 25 (off.toNat / 2 ^ 5) 8388627)))
  | .bge a b off => put 12 a.toNat (put 17 b.toNat (put 7 (off.toNat % 2 ^ 5) (put 25 (off.toNat / 2 ^ 5) 12582931)))
  | .bltu a b off => put 12 a.toNat (put 17 b.toNat (put 7 (off.toNat % 2 ^ 5) (put 25 (off.toNat / 2 ^ 5) 16777235)))
  | .bgeu a b off => put 12 a.toNat (put 17 b.toNat (put 7 (off.toNat % 2 ^ 5) (put 25 (off.toNat / 2 ^ 5) 20971539)))
  | .dbnz a off => put 12 a.toNat (put 7 (off.toNat % 2 ^ 5) (put 25 (off.toNat / 2 ^ 5) 25165843))
  | .jal d i => put 7 d.toNat (put 12 i.toNat 23)
  | .jalr d a i => put 7 d.toNat (put 12 a.toNat (put 20 i.toNat 27))
  | .ldb d a i => put 7 d.toNat (put 12 a.toNat (put 20 i.toNat 31))
  | .ldh d a i => put 7 d.toNat (put 12 a.toNat (put 20 i.toNat 131103))
  | .ldw d a i => put 7 d.toNat (put 12 a.toNat (put 20 i.toNat 262175))
  | .ldd d a i => put 7 d.toNat (put 12 a.toNat (put 20 i.toNat 393247))
  | .ldbu d a i => put 7 d.toNat (put 12 a.toNat (put 20 i.toNat 524319))
  | .ldhu d a i => put 7 d.toNat (put 12 a.toNat (put 20 i.toNat 655391))
  | .ldwu d a i => put 7 d.toNat (put 12 a.toNat (put 20 i.toNat 786463))
  | .stb s a i => put 7 s.toNat (put 12 a.toNat (put 20 i.toNat 35))
  | .sth s a i => put 7 s.toNat (put 12 a.toNat (put 20 i.toNat 131107))
  | .stw s a i => put 7 s.toNat (put 12 a.toNat (put 20 i.toNat 262179))
  | .std s a i => put 7 s.toNat (put 12 a.toNat (put 20 i.toNat 393251))
  | .ldk d i => put 7 d.toNat (put 20 i.toNat 39)
  | .addK d a i => put 7 d.toNat (put 12 a.toNat (put 20 i.toNat 268435495))
  | .subK d a i => put 7 d.toNat (put 12 a.toNat (put 20 i.toNat 536870951))
  | .mulK d a i => put 7 d.toNat (put 12 a.toNat (put 20 i.toNat 805306407))
  | .andK d a i => put 7 d.toNat (put 12 a.toNat (put 20 i.toNat 1073741863))
  | .orK d a i => put 7 d.toNat (put 12 a.toNat (put 20 i.toNat 1342177319))
  | .xorK d a i => put 7 d.toNat (put 12 a.toNat (put 20 i.toNat 1610612775))
  | .ldxK m i => put 7 m.toNat (put 20 i.toNat 1879048231)
  | .faddK d a p i => put 7 d.toNat (put 12 a.toNat (put 17 p.toNat (put 20 i.toNat 2147483687)))
  | .fmulK d a p i => put 7 d.toNat (put 12 a.toNat (put 17 p.toNat (put 20 i.toNat 2415919143)))
  | .ffmaK d a p i => put 7 d.toNat (put 12 a.toNat (put 17 p.toNat (put 20 i.toNat 2684354599)))
  | .fsubK d a p i => put 7 d.toNat (put 12 a.toNat (put 17 p.toNat (put 20 i.toNat 2952790055)))
  | .ldx m a i => put 7 m.toNat (put 12 a.toNat (put 20 i.toNat 43))
  | .stx m a i => put 7 m.toNat (put 12 a.toNat (put 20 i.toNat 131115))
  | .mte m a => put 7 m.toNat (put 12 a.toNat 262187)
  | .mfe d m => put 7 d.toNat (put 12 m.toNat 393259)
  | .fli d i => put 7 d.toNat (put 12 i.toNat 47)
  | .faddi d i => put 7 d.toNat (put 12 i.toNat 51)
  | .fmuli d i => put 7 d.toNat (put 12 i.toNat 55)
  | .fadd d a b f m => put 7 d.toNat (put 12 a.toNat (put 17 b.toNat (put 22 f.toNat (put 25 m.toNat 59))))
  | .fsub d a b f m => put 7 d.toNat (put 12 a.toNat (put 17 b.toNat (put 22 f.toNat (put 25 m.toNat 268435515))))
  | .fmul d a b f m => put 7 d.toNat (put 12 a.toNat (put 17 b.toNat (put 22 f.toNat (put 25 m.toNat 536870971))))
  | .fdiv d a b f m => put 7 d.toNat (put 12 a.toNat (put 17 b.toNat (put 22 f.toNat (put 25 m.toNat 805306427))))
  | .fsqrt d a f m => put 7 d.toNat (put 12 a.toNat (put 22 f.toNat (put 25 m.toNat 1073741883)))
  | .fmin d a b f => put 7 d.toNat (put 12 a.toNat (put 17 b.toNat (put 22 f.toNat 1342177339)))
  | .fmax d a b f => put 7 d.toNat (put 12 a.toNat (put 17 b.toNat (put 22 f.toNat 1610612795)))
  | .fcmp d a b f c => put 7 d.toNat (put 12 a.toNat (put 17 b.toNat (put 22 f.toNat (put 25 c.toNat 1879048251))))
  | .fclass d a f => put 7 d.toNat (put 12 a.toNat (put 22 f.toNat 2147483707))
  | .fsgn d a b f => put 7 d.toNat (put 12 a.toNat (put 17 b.toNat (put 22 f.toNat 2415919163)))
  | .fsgnn d a b f => put 7 d.toNat (put 12 a.toNat (put 17 b.toNat (put 22 f.toNat 2449473595)))
  | .fsgnx d a b f => put 7 d.toNat (put 12 a.toNat (put 17 b.toNat (put 22 f.toNat 2483028027)))
  | .fcvt d a t s m => put 7 d.toNat (put 12 a.toNat (put 17 t.toNat (put 22 s.toNat (put 25 m.toNat 2684354619))))
  | .ffma d a b c f m => put 7 d.toNat (put 12 a.toNat (put 17 b.toNat (put 22 c.toNat (put 27 f.toNat (put 29 m.toNat 63)))))
  | .csrr d n => put 7 d.toNat (put 20 n.toNat 67)
  | .csrw a n => put 12 a.toNat (put 20 n.toNat 131139)
  | .svc c => put 20 c.toNat 262211
  | .tret => 393283
  | .ifence => 524355
  | .brk c => put 20 c.toNat 655427
  | .spt n => put 20 n.toNat 786499
  | .nop => 917571
  | .send a b t => put 12 a.toNat (put 17 b.toNat (put 22 t.toNat 71))
  | .spawn d a b => put 7 d.toNat (put 12 a.toNat (put 17 b.toNat 33554503))
  | .tend => 67108935
  | .claim a => put 12 a.toNat 100663367
  | .unclaim => 134217799
  | .dcset a b => put 12 a.toNat (put 17 b.toNat 167772231)
  | .dcdec a => put 12 a.toNat 201326663
  | .tagarmAny a b => put 12 a.toNat (put 17 b.toNat 234881095)
  | .tagarmAll a b => put 12 a.toNat (put 17 b.toNat 239075399)
  | .bari a n => put 12 a.toNat (put 17 n.toNat 268435527)
  | .barv a n => put 12 a.toNat (put 17 n.toNat 301989959)
  | .bard n => put 17 n.toNat 335544391
  | .barj n => put 17 n.toNat 369098823
  | .barq d n => put 7 d.toNat (put 17 n.toNat 402653255)
  | .amoadd d a b o s => put 7 d.toNat (put 12 a.toNat (put 17 b.toNat (put 22 o.toNat (put 24 s.toNat 33554507))))
  | .amoand d a b o s => put 7 d.toNat (put 12 a.toNat (put 17 b.toNat (put 22 o.toNat (put 24 s.toNat 100663371))))
  | .amoor d a b o s => put 7 d.toNat (put 12 a.toNat (put 17 b.toNat (put 22 o.toNat (put 24 s.toNat 167772235))))
  | .amoxor d a b o s => put 7 d.toNat (put 12 a.toNat (put 17 b.toNat (put 22 o.toNat (put 24 s.toNat 234881099))))
  | .amomin d a b o s => put 7 d.toNat (put 12 a.toNat (put 17 b.toNat (put 22 o.toNat (put 24 s.toNat 301989963))))
  | .amomax d a b o s => put 7 d.toNat (put 12 a.toNat (put 17 b.toNat (put 22 o.toNat (put 24 s.toNat 369098827))))
  | .amominu d a b o s => put 7 d.toNat (put 12 a.toNat (put 17 b.toNat (put 22 o.toNat (put 24 s.toNat 436207691))))
  | .amomaxu d a b o s => put 7 d.toNat (put 12 a.toNat (put 17 b.toNat (put 22 o.toNat (put 24 s.toNat 503316555))))
  | .amoswp d a b o s => put 7 d.toNat (put 12 a.toNat (put 17 b.toNat (put 22 o.toNat (put 24 s.toNat 570425419))))
  | .cas d a b o s => put 7 d.toNat (put 12 a.toNat (put 17 b.toNat (put 22 o.toNat (put 24 s.toNat 637534283))))
  | .cas2 d a b o => put 7 d.toNat (put 12 a.toNat (put 17 b.toNat (put 22 o.toNat 721420363)))
  | .redadd a b o s => put 12 a.toNat (put 17 b.toNat (put 23 o.toNat (put 24 s.toNat 771752011)))
  | .ldacq d a s => put 7 d.toNat (put 12 a.toNat (put 24 s.toNat 809500747))
  | .strel a b s => put 12 a.toNat (put 17 b.toNat (put 24 s.toNat 880803915))
  | .fence s => put 7 s.toNat 79
  | .fenceAcq s => put 7 s.toNat 4194383
  | .fenceRel s => put 7 s.toNat 8388687
  | .fencex s p q => put 7 s.toNat (put 12 p.toNat (put 17 q.toNat 33554511))
  | .sflush a b => put 12 a.toNat (put 17 b.toNat 268435535)
  | .sinv a b => put 12 a.toNat (put 17 b.toNat 301989967)
  | .spf a b => put 12 a.toNat (put 17 b.toNat 335544399)
  | .monarm d a b => put 7 d.toNat (put 12 a.toNat (put 17 b.toNat 536870991))
  | .mondis a => put 12 a.toNat 570425423
  | .vadd d a b k e => put 7 d.toNat (put 11 a.toNat (put 15 b.toNat (put 19 k.toNat (put 22 e.toNat 83))))
  | .vsub d a b k e => put 7 d.toNat (put 11 a.toNat (put 15 b.toNat (put 19 k.toNat (put 22 e.toNat 33554515))))
  | .vmul d a b k e => put 7 d.toNat (put 11 a.toNat (put 15 b.toNat (put 19 k.toNat (put 22 e.toNat 67108947))))
  | .vfma d a b k e => put 7 d.toNat (put 11 a.toNat (put 15 b.toNat (put 19 k.toNat (put 22 e.toNat 100663379))))
  | .vdiv d a b k e => put 7 d.toNat (put 11 a.toNat (put 15 b.toNat (put 19 k.toNat (put 22 e.toNat 134217811))))
  | .vmin d a b k e => put 7 d.toNat (put 11 a.toNat (put 15 b.toNat (put 19 k.toNat (put 22 e.toNat 167772243))))
  | .vmax d a b k e => put 7 d.toNat (put 11 a.toNat (put 15 b.toNat (put 19 k.toNat (put 22 e.toNat 201326675))))
  | .vabs d a k e => put 7 d.toNat (put 11 a.toNat (put 19 k.toNat (put 22 e.toNat 234881107)))
  | .vand d a b k e => put 7 d.toNat (put 11 a.toNat (put 15 b.toNat (put 19 k.toNat (put 22 e.toNat 268435539))))
  | .vor d a b k e => put 7 d.toNat (put 11 a.toNat (put 15 b.toNat (put 19 k.toNat (put 22 e.toNat 301989971))))
  | .vxor d a b k e => put 7 d.toNat (put 11 a.toNat (put 15 b.toNat (put 19 k.toNat (put 22 e.toNat 335544403))))
  | .vshl d a b k e => put 7 d.toNat (put 11 a.toNat (put 15 b.toNat (put 19 k.toNat (put 22 e.toNat 369098835))))
  | .vshr d a b k e => put 7 d.toNat (put 11 a.toNat (put 15 b.toNat (put 19 k.toNat (put 22 e.toNat 402653267))))
  | .vsra d a b k e => put 7 d.toNat (put 11 a.toNat (put 15 b.toNat (put 19 k.toNat (put 22 e.toNat 436207699))))
  | .vadds d a b k e => put 7 d.toNat (put 11 a.toNat (put 15 b.toNat (put 19 k.toNat (put 22 e.toNat 469762131))))
  | .vsubs d a b k e => put 7 d.toNat (put 11 a.toNat (put 15 b.toNat (put 19 k.toNat (put 22 e.toNat 503316563))))
  | .vcmpeq d a b k e => put 7 d.toNat (put 11 a.toNat (put 15 b.toNat (put 19 k.toNat (put 22 e.toNat 536870995))))
  | .vcmplt d a b k e => put 7 d.toNat (put 11 a.toNat (put 15 b.toNat (put 19 k.toNat (put 22 e.toNat 570425427))))
  | .vcmple d a b k e => put 7 d.toNat (put 11 a.toNat (put 15 b.toNat (put 19 k.toNat (put 22 e.toNat 603979859))))
  | .vcmpltu d a b k e => put 7 d.toNat (put 11 a.toNat (put 15 b.toNat (put 19 k.toNat (put 22 e.toNat 637534291))))
  | .vsel d a b k e => put 7 d.toNat (put 11 a.toNat (put 15 b.toNat (put 19 k.toNat (put 22 e.toNat 671088723))))
  | .vcvt d a s k e => put 7 d.toNat (put 11 a.toNat (put 15 s.toNat (put 19 k.toNat (put 22 e.toNat 805306451))))
  | .vperm d a b k e => put 7 d.toNat (put 11 a.toNat (put 15 b.toNat (put 19 k.toNat (put 22 e.toNat 838860883))))
  | .vbcast d a k e => put 7 d.toNat (put 11 a.toNat (put 19 k.toNat (put 22 e.toNat 872415315)))
  | .vidx d k e => put 7 d.toNat (put 19 k.toNat (put 22 e.toNat 905969747))
  | .vmovx d a b e => put 7 d.toNat (put 11 a.toNat (put 15 b.toNat (put 22 e.toNat 939524179)))
  | .vredadd d a k e => put 7 d.toNat (put 11 a.toNat (put 19 k.toNat (put 22 e.toNat 1073741907)))
  | .vredmin d a k e => put 7 d.toNat (put 11 a.toNat (put 19 k.toNat (put 22 e.toNat 1107296339)))
  | .vredmax d a k e => put 7 d.toNat (put 11 a.toNat (put 19 k.toNat (put 22 e.toNat 1140850771)))
  | .vmand d a b => put 7 d.toNat (put 11 a.toNat (put 15 b.toNat 1342177363))
  | .vmor d a b => put 7 d.toNat (put 11 a.toNat (put 15 b.toNat 1375731795))
  | .vmxor d a b => put 7 d.toNat (put 11 a.toNat (put 15 b.toNat 1409286227))
  | .vmpopc d a => put 7 d.toNat (put 11 a.toNat 1442840659)
  | .vgen d g b k e => put 7 d.toNat (put 11 g.toNat (put 15 b.toNat (put 19 k.toNat (put 22 e.toNat 1610612819))))
  | .vld d a k e => put 7 d.toNat (put 11 a.toNat (put 19 k.toNat (put 22 e.toNat 87)))
  | .vst s a k e => put 7 s.toNat (put 11 a.toNat (put 19 k.toNat (put 22 e.toNat 33554519)))
  | .vlds d a b k e => put 7 d.toNat (put 11 a.toNat (put 15 b.toNat (put 19 k.toNat (put 22 e.toNat 67108951))))
  | .vsts s a b k e => put 7 s.toNat (put 11 a.toNat (put 15 b.toNat (put 19 k.toNat (put 22 e.toNat 100663383))))
  | .vgath d a b k e => put 7 d.toNat (put 11 a.toNat (put 15 b.toNat (put 19 k.toNat (put 22 e.toNat 134217815))))
  | .vscat s a b k e => put 7 s.toNat (put 11 a.toNat (put 15 b.toNat (put 19 k.toNat (put 22 e.toNat 167772247))))
  | .copy a b q => put 12 a.toNat (put 17 b.toNat (put 22 q.toNat 91))
  | .cshp d a => put 7 d.toNat (put 12 a.toNat 33554523)
  | .tagtst d a => put 7 d.toNat (put 12 a.toNat 67108955)
  | .tagff d a => put 7 d.toNat (put 12 a.toNat 100663387)
  | .tagclr a => put 12 a.toNat 134217819
  | .mma t q => put 7 t.toNat (put 22 q.toNat 536871003)
  | .mmac t s q => put 7 t.toNat (put 17 s.toNat (put 22 q.toNat 570425435))
  | .acld t a => put 7 t.toNat (put 12 a.toNat 603979867)
  | .acst t a => put 7 t.toNat (put 12 a.toNat 637534299)
  | .acz t => put 7 t.toNat 671088731
  | .accvt t a b => put 7 t.toNat (put 12 a.toNat (put 17 b.toNat 704643163))
  | .gset a g => put 12 a.toNat (put 17 g.toNat 805306459)
  | .gget a g => put 12 a.toNat (put 17 g.toNat 838860891)
  | .gdraw d a g => put 7 d.toNat (put 12 a.toNat (put 17 g.toNat 872415323))
  | .grdef a s => put 12 a.toNat (put 17 s.toNat 1073741915)
  | .grbc a s => put 12 a.toNat (put 17 s.toNat 1107296347)
  | .grstep s q => put 17 s.toNat (put 22 q.toNat 1140850779)
  | .ldhs d a s => put 7 d.toNat (put 12 a.toNat (put 17 s.toNat 1174405211))
  | .grq d a s => put 7 d.toNat (put 12 a.toNat (put 17 s.toNat 1207959643))
  | .park a => put 12 a.toNat 95
  | .ctxsv a => put 12 a.toNat 33554527
  | .ctxrs a => put 12 a.toNat 67108959
  | .tlbinv a b => put 12 a.toNat (put 17 b.toNat 100663391)
  | .pktemit a b => put 12 a.toNat (put 17 b.toNat 99)
  | .pktfwd a => put 12 a.toNat 33554531
  | .pktdrop => 67108963
  | .signal a => put 12 a.toNat 268435555
  | .parkq a => put 12 a.toNat 301989987
  | .launch a b => put 12 a.toNat (put 17 b.toNat 335544419)
  | .loopb d n o => put 7 d.toNat (put 12 n.toNat (put 20 o.toNat 103))
  | .cAddi d i => put 2 d.toNat (put 7 i.toNat 0)
  | .cLi d i => put 2 d.toNat (put 7 i.toNat 8192)
  | .cShli d i => put 2 d.toNat (put 7 i.toNat 16384)
  | .cShri d i => put 2 d.toNat (put 7 i.toNat 24576)
  | .cSrai d i => put 2 d.toNat (put 7 i.toNat 32768)
  | .cAndi d i => put 2 d.toNat (put 7 i.toNat 40960)
  | .cLddSp d i => put 2 d.toNat (put 7 i.toNat 49152)
  | .cStdSp d i => put 2 d.toNat (put 7 i.toNat 57344)
  | .cMv a d => put 2 a.toNat (put 7 d.toNat 1)
  | .cAdd a d => put 2 a.toNat (put 7 d.toNat 4097)
  | .cSub a d => put 2 a.toNat (put 7 d.toNat 8193)
  | .cAnd a d => put 2 a.toNat (put 7 d.toNat 12289)
  | .cOr a d => put 2 a.toNat (put 7 d.toNat 16385)
  | .cXor a d => put 2 a.toNat (put 7 d.toNat 20481)
  | .cJr a => put 2 a.toNat 24577
  | .cJalr a d => put 2 a.toNat (put 7 d.toNat 28673)
  | .cLdd a d => put 2 a.toNat (put 7 d.toNat 32769)
  | .cStd a d => put 2 a.toNat (put 7 d.toNat 36865)
  | .cLdw a d => put 2 a.toNat (put 7 d.toNat 40961)
  | .cStw a d => put 2 a.toNat (put 7 d.toNat 45057)
  | .cTend => 49153
  | .cNop => 57345
  | .cBrk => 61441
  | .cBeqz a i => put 2 a.toNat (put 7 i.toNat 2)
  | .cBnez a i => put 2 a.toNat (put 7 i.toNat 8194)
  | .cJ i => put 2 i.toNat 16386
  | .cDbnz a i => put 2 a.toNat (put 7 i.toNat 24578)
  | .cLdk d i => put 2 d.toNat (put 7 i.toNat 32770)
  | .stashcfgWrite _ | .queueWriteResume _ | .dispatch | .msg _ | .inboxWriteWaiting | .rdec _ | .barrierFlip _ | .copyStart | .copyComplete _ | .matrixCommandStart | .matrixChunk | .matrixComplete | .matrixFetchFault | .mfetch | .leveeTake | .slab _ | .ldhsStallLimit | .storeBufferDrain | .fill _ _ | .data _ _ | .notice _ _ | .grant _ _ | .wb _ _ | .inv _ | .ack _ _ | .atom _ | .catom _ | .atomr _ | .mdec _ _ | .packetForward _ | .ctrl _ | .controlFlit _ _ | .limitPeriod _ | .linkReplay _ | .linkDown _ | .linkUp _ | .kernelInvoke | .flowTimeout _ | .deadline _ | .sliceInstant | .sliceDeadline | .contextRestore _ | .parkRequest _ | .watchdog | .haltreq _ | .resumereq _ | .debugTrigger | .engstep _ | .acmdReadContext _ | .acmdWriteContext _ | .acmdReadVa _ | .acmdWriteVa _ | .pcSample | .replayHoldLimit _ | .sramError _ _ | .patrolScrub _ | .awr _ | .aqConfigWrite _ _ | .registerWrite _ _ | .ard _ | .mwr _ | .mrd _ | .cpl _ | .doorbell _ _ | .qcreate | .qdestroy | .pcreate | .pslice | .loadqp | .loadfc | .fenceCmd | .retire | .rasring | .peat | .watch | .manifest | .fwload | .wring | .queueProgramInvoke | .parkqTimeout _ | .gangLaunch | .gangEnd _ | .rangeChunkTake _ | .interruptHold _ | .powerOn | .bootReadyTimeout | .thermalThrottle _ _ | .barrierOperationAtRoot _ | .bariReachesCore _ _ | .monitorRemoval | .hostLinkDown => 0

end Sys2Proof
end

