-- ==== Sys2Proof/Machine/Bits.lean ====
section
/-! DEFINITION. Bit fields, sign extension and byte order (R4, R6, R8). -/

namespace Sys2Proof.Machine

/-- Field [lo + n - 1 : lo] of a register, as a number (R6). -/
def field {w : Nat} (x : BitVec w) (lo n : Nat) : Nat := x.toNat / 2 ^ lo % 2 ^ n

/-- Bit `i` of a register. -/
def bit {w : Nat} (x : BitVec w) (i : Nat) : Bool := x.getLsbD i

/-- A field value placed at bit `lo` of a 64-bit word. -/
def at_ (lo v : Nat) : Word := BitVec.ofNat 64 (v * 2 ^ lo)

/-- A Bool as a bit. -/
def bnat (b : Bool) : Nat := if b then 1 else 0

/-- `x` with field [lo + n - 1 : lo] replaced by `v`. -/
def withField (x : Word) (lo n v : Nat) : Word :=
  (x &&& ~~~ at_ lo (2 ^ n - 1)) ||| at_ lo (v % 2 ^ n)

/-- The bits of `x` under a mask of the writable fields come from `v` (R7). -/
def masked (x v mask : Word) : Word := (x &&& ~~~ mask) ||| (v &&& mask)

/-- zext64 of a number (R73). -/
def word (n : Nat) : Word := BitVec.ofNat 64 n

/-- sext64 of the low `n` bits of a number (R73). -/
def sext (n v : Nat) : Word := (BitVec.ofNat n v).signExtend 64

/-- sext64 of an operand field. -/
def sextField {n : Nat} (v : BitVec n) : Word := v.signExtend 64

/-- zext64 of an operand field. -/
def zextField {n : Nat} (v : BitVec n) : Word := v.zeroExtend 64

/-- Bytes, lowest address first, as a little-endian integer (R4). -/
def ofBytes : List Byte → Nat
  | [] => 0
  | b :: t => b.toNat + 256 * ofBytes t

/-- The `n` bytes of an integer, lowest address first (R4). -/
def toBytes : Nat → Nat → List Byte
  | 0, _ => []
  | n + 1, v => BitVec.ofNat 8 v :: toBytes n (v / 256)

/-- A doubleword of bytes as a register value. -/
def wordOf (bs : List Byte) : Word := word (ofBytes bs)

/-- The doubleword number `i` of a block of bytes. -/
def dword (bs : List Byte) (i : Nat) : Word := wordOf ((bs.drop (8 * i)).take 8)

/-- Replace element `i` of a list. -/
def setAt {α : Type} : List α → Nat → α → List α
  | [], _, _ => []
  | _ :: t, 0, v => v :: t
  | h :: t, i + 1, v => h :: setAt t i v

/-- The index of the lowest set bit below `n`, or `n`. -/
def lowestBit (x : Nat) : Nat → Nat → Nat
  | 0, i => i
  | n + 1, i => if x / 2 ^ i % 2 = 1 then i else lowestBit x n (i + 1)

/-- The number of set bits among the low `n`. -/
def popCount (x : Nat) : Nat → Nat
  | 0 => 0
  | n + 1 => x / 2 ^ n % 2 + popCount x n

/-- Rounding up of a quotient. -/
def ceilDiv (a b : Nat) : Nat := (a + b - 1) / b

/-- The indices below `n` of the set bits of a mask. -/
def bitsOf {w : Nat} (x : BitVec w) : List Nat := (List.range w).filter fun i => x.getLsbD i

/-- A mask with the named bits set. -/
def maskOf (w : Nat) (l : List Nat) : BitVec w :=
  l.foldl (fun m i => m ||| BitVec.ofNat w (2 ^ i)) 0

/-- One byte of the CRC-32 of IEEE 802.3, least significant bit first (R365). -/
def crcStep : Nat → BitVec 32 → BitVec 32
  | 0, c => c
  | n + 1, c => crcStep n (if bit c 0 then (c >>> 1) ^^^ 0xEDB88320 else c >>> 1)

/-- The CRC-32 (IEEE 802.3) of bytes. -/
def crc32 (bs : List Byte) : BitVec 32 :=
  ~~~ (bs.foldl (fun (c : BitVec 32) b => crcStep 8 (c ^^^ b.zeroExtend 32)) 0xFFFFFFFF)

/-- A free value: which of `n` outcomes comes about at the draw `d`. -/
def pick (d n : Nat) : Nat := if n ≤ 1 then 0 else d % n

end Sys2Proof.Machine
end

