-- ==== Sys2Proof/Machine/State.lean ====
section
/-! DEFINITION. The state of the machine as plain data, its fault and refusal reasons, and the state
after reset. One compute core of a device, the local memories of its cluster, the memory and
directory of its device, its engines, the barrier root of its gang, the Carr switch with its Sedge
processors, the command front end and the cluster debug module. -/

namespace Sys2Proof.Machine

/-- Reasons for which the machine stops with a fault. The spec delivers every fault it describes as
a trap, a park, a status or a message, so no meaning stops; safe. -/
inductive Fault where
  /-- Raised by no meaning: each fault of the spec is a next state. Safe. -/
  | none_
  deriving DecidableEq, Repr

/-- Reasons for which an instruction has no meaning. -/
inductive Refusal where
  /-- Raised by the dispatcher for an instruction without a meaning; safe. -/
  | notModelled (mnemonic : String)
  deriving DecidableEq, Repr

/-- The processor whose instruction runs: the compute core, a Sedge processor of the switch (R421),
or an execution slot of the command front end (R441). -/
inductive Proc where
  | core
  | sedge (n : Nat)
  | cfe (n : Nat)
  deriving DecidableEq, Repr, Inhabited

/-- A poisoned register: its number and the address of the poisoned target, which TRAPVAL takes
(R258); 0 for an error in the register itself (R223). [log 42: DESIGN CHOICE] -/
structure PoisonMark where
  reg : Nat
  addr : Word
  deriving DecidableEq, Repr, Inhabited

/-- A frame of the stack (R144): its record, its header's attributes and its window. The registers
stand in the record whether or not the window is resident, save while it is spilled (R147). -/
structure Frame where
  /-- the handler entry, x of R18 -/
  entry : Word
  /-- the address of the next instruction of this frame (R33, R144) -/
  pc : Word
  /-- the level of the frame, 0 to 23 (R30) -/
  level : Nat
  /-- THR.LVL while this frame is on top: its level, raised by claims (R30, R149) -/
  thr : Nat
  /-- CLSP at the frame's dispatch (R149) -/
  claimBase : Nat
  /-- MSGINFO of the frame (R148) -/
  msgInfo : Word
  /-- TASKID of the frame (R299) -/
  taskId : Word
  /-- WCODE, VEC, MAT and SPTOFF of the header (R18) -/
  wcode : BitVec 2
  vec : Bool
  mat : Bool
  sptOff : BitVec 24
  /-- x1 to x31 of the window (R15); x0 is not stored -/
  regs : Table Word
  /-- registers of the window that hold a poisoned value (R223, R258) -/
  poison : List PoisonMark
  /-- where the SCRCFG in force at the dispatch placed the spill slot (R146) -/
  spillSlot : Nat
  /-- the window stands in its spill slot (R147) -/
  spilled : Bool
  /-- TIME at the arrival of the entry, at its dispatch, and the time it ran as top frame (R157) -/
  arrival : Word
  dispatched : Word
  run : Word
  deriving DecidableEq, Repr, Inhabited

/-- A trap frame (R345): its window, its pc and what its TRET needs. -/
structure TrapFrame where
  pc : Word
  regs : Table Word
  poison : List PoisonMark
  /-- the mode of the trapped frame, kept in the record -/
  keptMode : BitVec 2
  /-- entered on an idle core (R294) -/
  onIdle : Bool
  /-- the issuing level of the operation whose MFETCH entered it (R350) -/
  operation : Option Nat
  deriving DecidableEq, Repr, Inhabited

/-- One entry of a level's queue (R141): an inbox message and the kind of its slot, or a run-list
entry with its release word's parts. Each holds TIME at its arrival or release. -/
inductive Entry where
  | message (m : Message) (reserved : Bool) (arrival : Word)
  | release (n : BitVec 12) (status : BitVec 16) (bytes : BitVec 32) (arrival : Word)
  deriving DecidableEq, Repr

/-- What the cluster port holds: a message that waits for a slot (R140), and whether it still counts
against q3 (R13). -/
structure PortMessage where
  m : Message
  own : Bool
  deriving DecidableEq, Repr

/-- An entry of q3 (R13, R163, R164, R170, R368). -/
inductive Outbound where
  | message (target : BitVec 18) (m : Message) (spawn : Bool)
  | decrement (target : BitVec 18) (n : BitVec 12) (status : BitVec 16)
  | park (target : BitVec 18) (r : ParkRequest)
  deriving DecidableEq, Repr

/-- An arm slot of TAGARM (R171). -/
structure Arm where
  mask : Word
  all : Bool
  n : BitVec 12
  deriving DecidableEq, Repr

/-- A monitor entry of the core (R267): the line and the word within it, and the counter. -/
structure Monitor where
  line : LineId
  word : BitVec 4
  n : BitVec 12
  deriving DecidableEq, Repr

/-- A barrier register (R154). -/
structure Barrier where
  active : Bool := false
  reg : Bool := false
  arr : Bool := false
  arm : Bool := false
  /-- PEND: 0b01 join, 0b10 drop -/
  pend : BitVec 2 := 0
  succ : BitVec 12 := 0
  phase : BitVec 16 := 0
  expect : BitVec 12 := 0
  arrived : BitVec 12 := 0
  /-- the number, in the root's order, of the last BARI that has reached the core (R177) -/
  epoch : Nat := 0
  deriving DecidableEq, Repr, Inhabited

/-- What a fence asks of what it waits for (R244 to R246): the class Q of the later accesses that wait, 5 for the
strong accesses that a release fence holds; of engine commands those from a number on; the scope; and whether
the invalidations that the access causes are awaited with it. [log 20: DESIGN CHOICE] -/
structure Fence where
  cls : Nat
  first : Nat
  scope : Word
  deep : Bool
  deriving DecidableEq, Repr

/-- An atomic of the core whose reply has not returned (R242): the destination register, in a frame
of a level or in the trap frame, and what the reply does. [log 20: DESIGN CHOICE] -/
structure InFlight where
  id : Nat
  level : Option Nat
  rd : Reg
  /-- 4, 8 or 16 bytes -/
  size : Nat
  addr : Word
  /-- the home device and the physical address, by which a reply from another device is known -/
  dev : BitVec 8
  pa : BitVec 44
  returning : Bool
  /-- path class 0, or 4 for a fabric atomic (R243) -/
  cls : Nat
  /-- what waits for it, by its acquire role or by fences (R245, R246, R252) -/
  fences : List Fence
  deriving DecidableEq, Repr

/-- An acknowledgement of an invalidation that is awaited (R229, R244, R246). [log 20: DESIGN CHOICE] -/
structure Ack where
  line : LineId
  src : Sharer
  /-- what it answers: 0 a release of the core, 1 to 3 the writes of an engine's path class, 4 a
  CFE write, 5 what nothing awaits, 6 the marks of a grant (R232), 7 another core's publication, 8 a write-back
  that an SFLUSH or SINV awaits (R264), 9 what the home on another device asked of the die's copies (R211); of a
  host write the classes above -/
  cls : Nat
  /-- the effects of R229 are held until it returns -/
  holds : Bool
  /-- what fences hold until it returns (R245, R246) -/
  fences : List Fence
  /-- it is a home slice's, which every scope awaits (R244) -/
  home : Bool := false
  /-- the engine operation that it belongs to, while that runs (R246) -/
  op : Option Nat := none
  deriving DecidableEq, Repr

/-- The save point of a switch, once the top frame has reached it (R361): a live save with the live
bits of the table entry's two last fields, or a save in which every register counts as live. -/
structure SavePoint where
  live : Bool
  gens : BitVec 16
  regs : Word
  deriving DecidableEq, Repr

/-- A line of the instruction cache that is marked poisoned (R352): its virtual address / 128, and the value for
XFSTAT when a fetch ahead of issue failed, or none for an uncorrectable error. -/
structure BadLine where
  line : Nat
  fault : Option Word
  deriving DecidableEq, Repr

/-- The registers and the private state of the compute core. -/
structure Core where
  /-- the frame stack, the running frame first (R145) -/
  frames : List Frame
  /-- the trap frame above all levels (R345) -/
  trap : Option TrapFrame
  /-- v0 to v15 by 16 × level + i; k0 to k7 and g0 to g7 by 8 × level + i; e0 to e3 and sc0 to sc3
  by 4 × level + i; tile elements by ((4 × level + tile) × 16 + row) × 16 + column; FPCTL by level
  (R10, R31) -/
  v : Table (BitVec 512)
  k : Table Word
  e : Table Word
  g : Table (BitVec 256)
  tiles : Table (BitVec 32)
  sc : Table Word
  fpctl : Table Word
  /-- b0 to b31 (R154) -/
  bar : Table Barrier
  tags : Word
  time : Word
  /-- TIME has been synchronised once (R32) -/
  synced : Bool
  cyc : Word
  retired : Word
  trapCause : Word
  trapPc : Word
  trapVal : Word
  coreId : BitVec 18
  /-- INBOX.BADMSG and INBOX.DCLOST (R142) -/
  badMsg : Bool
  dcLost : Bool
  scrcfg : Word
  dcbase : Word
  dacbase : Word
  /-- the 8 arm slots (R171) -/
  arms : Table (Option Arm)
  vflane : Word
  stashcfg : Word
  xroot : Word
  xfstat : Word
  raceinfo : Word
  /-- the 16 monitor entries (R267) -/
  monitors : Table (Option Monitor)
  engstat : Word
  mfault : Word
  mfpc : Word
  tvec : Word
  tscr : Word
  partid : Word
  fhand : Word
  keymask : Word
  /-- PRECT0 to PRECT7 (R357) -/
  prect : Table Word
  slat : Word
  slcfg : Word
  slkeep : Word
  cntcfg : Word
  cnt : Table Word
  pcscfg : Word
  pcsbase : Word
  pcsidx : Word
  evbase : Word
  evcfg : Word
  evidx : Word
  /-- event records lost and not yet reported, by unit (R387) -/
  evLost : Table Nat
  peatcfg : Word
  /-- CEIL0 to CEIL63 (R149) -/
  ceil : Table Word
  /-- the claim stack, top first: the previous THR and the resource (R149) -/
  claims : List (Nat × Nat)
  /-- the 24 queues of R141, by level -/
  queues : Table (List Entry)
  /-- messages that wait at the cluster port (R140) -/
  port : List PortMessage
  /-- q3 (R13) -/
  q3 : List Outbound
  /-- targets of the entries of q3 that were sent and that the target's port has not yet placed, applied or
  refused (R13) -/
  q3Out : List (BitVec 18)
  /-- the context area whose late ring still holds entries for the restored partition (R364) -/
  lateRing : Option Nat
  /-- arrivals for a partition that is not resident, with a full late ring (R363) -/
  latePort : List (BitVec 6 × List Byte)
  /-- parked, with its park address (R355) -/
  parked : Option Word
  /-- a PARK request waits for the core's next boundary outside a trap frame (R368) -/
  parkWaits : Bool
  /-- a resume that waits for the line of the park address (R368) -/
  resuming : Option ParkRequest
  /-- in debug mode (R372), with a trap whose entry waits for the resume (R373) -/
  halted : Bool
  trapWaits : Bool
  /-- a resume with STEP set runs one instruction (R376) -/
  stepping : Bool
  /-- the gang watchdog's count in ns, and that it has posted (R356) -/
  wdCount : Nat
  wdPosted : Bool
  /-- switch-pending (R360), not resident (R360, R364), and powered off with its cluster (R225) -/
  switching : Bool
  /-- the save point that the top frame of a switch-pending core has reached (R361) -/
  saving : Option SavePoint
  away : Bool
  poweredOff : Bool
  /-- member of a running gang (R173) -/
  member : Bool
  /-- atomics whose replies are outstanding, and the next number (R242) -/
  inFlight : List InFlight
  nextId : Nat
  /-- acknowledgements awaited (R229) -/
  acks : List Ack
  /-- halfwords changed by stores since the last IFENCE: address and old bytes (R37) -/
  stale : List (Nat × BitVec 16)
  /-- lines of the instruction cache that are marked poisoned (R352) -/
  badCode : List BadLine
  /-- banked registers that an uncorrectable error struck, by 128 × level + number: v0 at 32, k0 at 48, e0 at 56,
  a0 at 60, g0 at 64, sc0 at 72, FPCTL at 76 (R223) -/
  bankPoison : Table Bool
  /-- doublewords of the saved engine state that no field here stands for, as the debugger wrote them, by offset
  (R374) -/
  image : Table Word
  /-- an LDHS that stalls: TIME at its start, and the value of its STALE trap (R313, R314) -/
  ldhsSince : Option (Word × Word)
  deriving DecidableEq, Repr

/-- A word of a copy that another core holds (R232), and whether a STREL grant alone holds it
(R257). -/
structure Mark where
  word : Nat
  holder : BitVec 18
  release : Bool
  deriving DecidableEq, Repr

/-- A line of the stash (R205). [log 19: DESIGN CHOICE] -/
structure StashLine where
  line : LineId
  set : Nat
  way : Nat
  /-- bytes by offset 0 to 127 -/
  data : Table Byte
  poison : BitVec 16
  /-- words written and not yet written back -/
  written : BitVec 16
  key : BitVec 6
  /-- words that another core holds, with the holder (R232) -/
  marks : List Mark
  deriving DecidableEq, Repr, Inhabited

/-- An entry of the store buffer (R213): the buffered bytes of one line, by offset. -/
structure Buffered where
  line : LineId
  bytes : List (Nat × Byte)
  /-- the page does not use the stash -/
  direct : Bool
  /-- the key id of the page (R212) -/
  key : BitVec 6
  /-- words whose other bytes came poisoned from another device (R223) -/
  poison : BitVec 16 := 0
  /-- words that one store has written whole (R223) -/
  whole : BitVec 16 := 0
  deriving DecidableEq, Repr

/-- The words of a line that the core's own writer slot holds (R210), and those of them that only a
STREL grant holds (R257). -/
structure Grant where
  line : LineId
  words : BitVec 16
  release : BitVec 16
  /-- words that a store has written (R237) -/
  written : BitVec 16
  /-- the page is LOGGED (R217, R240) -/
  logged : Bool
  /-- bytes that have gone to the home slice of another device and are not yet published (R92) -/
  sent : List (Nat × Byte) := []
  deriving DecidableEq, Repr

/-- A writer slot of another core (R210, R257). -/
structure Writer where
  core : BitVec 18
  words : BitVec 16
  release : BitVec 16
  deriving DecidableEq, Repr

/-- A directory entry of a home line of this device (R210): other cores' writer slots, the other
holders of copies, and the pointers' overflow bit. -/
structure DirEntry where
  writers : List Writer
  sharers : List Sharer
  overflow : Bool
  deriving DecidableEq, Repr, Inhabited

/-- What a line of another die is held for: as a copy that stays (R211), or as the answer to an access of
the core, or of an engine, to a page of which no copy may stay (R209). [log 18: DEDUCED] -/
inductive LineUse where
  | copy
  | core
  | engine
  deriving DecidableEq, Repr

/-- A line that is awaited from another device (R204, R205, R232): for a copy, for one access, or the
grant of words of it. -/
inductive Want where
  | line (u : LineUse)
  | grant
  deriving DecidableEq, Repr

/-- A request that is on its way to another device: what is wanted, the key id of the page (R212), and
whether a STREL asks (R257). [log 18: DEDUCED] -/
structure LineRequest where
  line : LineId
  want : Want
  key : BitVec 6
  release : Bool
  /-- the line fills the stash when it comes (R265) -/
  stash : Bool := false
  deriving DecidableEq, Repr

/-- A peer copy in the L2 of the core's die (R211): a line whose home lies on another die. -/
structure PeerLine where
  line : LineId
  data : Table Byte
  poison : BitVec 16
  marks : List Mark
  /-- stashes of this die that hold the line -/
  sharers : List Sharer
  key : BitVec 6
  use : LineUse
  deriving DecidableEq, Repr

/-- A set of an L2 slice (R209): the line in each of its 16 ways, and the state of its replacement. [log 77: DESIGN CHOICE] -/
structure L2Set where
  ways : Table (Option LineId)
  plru : BitVec 15
  deriving DecidableEq, Repr, Inhabited

/-- A run of local memory that lay in a stash region since it was last written: its bytes are not known,
and are the free values of a number (R205); while the region stands there it holds stash data, a new free value
at every step. [log 19: DESIGN CHOICE] -/
structure Unknown where
  first : Nat
  last : Nat
  draw : Nat
  live : Bool := false
  deriving DecidableEq, Repr

/-- What a slice owes once the acknowledgements of a line have returned: the acknowledgement of another core's
publication, or the answer to its request, of a home slice (R229, R232); the acknowledgement for a home on another
device that the copies of the core's die have done what it asked (R211). The partition is the requester's (R399). -/
inductive Owed where
  | ack (line : BitVec 37) (die : BitVec 10) (part : BitVec 6)
  | grant (line : BitVec 37) (q : GrantRequest)
  | copyAck (line : LineId) (part : BitVec 6)
  deriving DecidableEq, Repr

/-- A monitor decrement that a home slice of this device has to send (R268): it leaves once the line's
invalidations have been acknowledged. -/
structure Firing where
  core : BitVec 18
  line : LineId
  word : BitVec 4
  part : BitVec 6
  n : BitVec 12
  status : BitVec 16
  deriving DecidableEq, Repr

/-- A monitor registration at a home slice of this device (R267). -/
structure Registration where
  core : BitVec 18
  part : BitVec 6
  line : BitVec 37
  word : BitVec 4
  n : BitVec 12
  deriving DecidableEq, Repr

/-- A request at a slice that has not been performed (R209, R238, R241, R429), in order of arrival: it is on
its way there, a word of it is held, its set has no room, or replay names another access first (R390). [log 3: DESIGN CHOICE] -/
inductive Kept where
  | atomic (r : AtomRequest) (own : Option Nat)
  | group (g : List AtomRequest)
  | hostWrite (leaf : Word) (pa : Nat) (bytes : List Byte) (tid : BitVec 16)
  | grant (line : LineId) (r : GrantRequest)
  | publication (line : LineId) (scope : Word)
  | engine (leaf : Word) (big : Bool) (pa : Nat) (bytes : List Byte) (unit : Nat)
  | fill (line : LineId) (q : FillRequest)
  | writeBack (line : LineId) (w : WriteBack)
  /-- a line of another device that has come and finds no room in its set (R209) -/
  | data (line : LineId) (r : LineReply)
  /-- an atomic for another device, behind what the core has sent there about its line (R238, R240) -/
  | remote (line : LineId) (p : Packet) (r : AtomRequest) (id : Nat)
  /-- a host packet behind a host write that waits (R429) -/
  | hostPacket (p : HtlPacket)
  /-- a write into the host aperture behind a host write that waits, of which no packet is given (R429) -/
  | hostAperture (off : Nat) (v : Word)
  /-- a read of the host that awaits lines of another device -/
  | hostRead (p : HtlPacket)
  deriving DecidableEq, Repr

/-- A cached leaf (R221): partition, first virtual address of the page, its size and the leaf. -/
structure TlbEntry where
  part : BitVec 6
  base : Nat
  big : Bool
  leaf : Word
  deriving DecidableEq, Repr

/-- A table entry as a write found it (R221): when, where, and the entry. [log 15: DEDUCED] -/
structure OldEntry where
  tick : Nat
  pa : Nat
  word : Word
  deriving DecidableEq, Repr

/-- An invalidation of the cluster's translation cache (R370): when, of which partition, and the address, or
none for every page. [log 15: DEDUCED] -/
structure TlbInvalidation where
  tick : Nat
  part : BitVec 6
  va : Option Nat
  deriving DecidableEq, Repr

/-- A byte of local memory as it stood before an engine operation that still runs wrote it (R227): the
operation's number, the key and the byte. [log 26: DESIGN CHOICE] -/
structure Shadow where
  op : Nat
  key : Nat
  val : Byte
  deriving DecidableEq, Repr

/-- The memories: local, physical, the copies the core and its die hold, and the directory. [log 71: DESIGN CHOICE] -/
structure Mem where
  /-- local memories of the cluster: core index × 2^20 + offset (R23, R24) -/
  lmem : Table Byte
  lpoison : Table Bool
  /-- physical memory of this device, by PA (R207): the home values -/
  pmem : Table Byte
  ppoison : Table Bool
  /-- the key each line was written with (R212), by line number -/
  pkey : Table (BitVec 6)
  /-- runs of local memory of unknown content (R205) -/
  unknown : List Unknown
  /-- STASHCFG[7:0] of the cluster's cores, by core index; the own core's stands in STASHCFG (R206) -/
  stashcfgs : Table (BitVec 8)
  /-- the sets of the device's L2 slices, by (64 × die + slice) × 1024 + set (R209) -/
  l2 : Table L2Set
  /-- the store buffer, oldest first (R213) -/
  buffer : List Buffered
  stash : List StashLine
  /-- tree pseudo-LRU bits of a stash set (R205) -/
  plru : Table (BitVec 7)
  /-- words granted to the core and unpublished (R210, R228) -/
  grants : List Grant
  /-- directory of this device's lines, by line number (R210) -/
  dir : Table DirEntry
  peers : List PeerLine
  monitors : List Registration
  kept : List Kept
  tlb : List TlbEntry
  /-- table entries that were changed, whose leaves another core of the cluster or an engine may have cached, and
  the cache's invalidations (R221, R370) -/
  oldEntries : List OldEntry
  tlbinvs : List TlbInvalidation
  /-- bytes of local memory before the engine operations that still run (R227) -/
  shadows : List Shadow
  /-- invalidations on their way to this core's copies (R210) -/
  invs : List LineId
  /-- lines that the core and the engines await from another device (R204, R205, R232) -/
  requested : List LineRequest
  /-- monitor decrements that the home slices have to send (R268) -/
  firings : List Firing
  /-- what the home slices owe other cores (R229, R232) -/
  owed : List Owed
  /-- MONDIS requests on their way to the home slice (R269) -/
  removals : List (LineId × BitVec 4)
  /-- answers that came: refusals of a grant, with the word and the holder (R232) -/
  refusals : List (LineId × Nat × BitVec 18)
  deriving DecidableEq, Repr

/-- A release image read at issue (R275). -/
structure ReleaseImage where
  hdr0 : Word
  target : BitVec 18
  p0 : Word
  p1 : Word
  p2 : Word
  p3 : Word
  p4 : Word
  /-- the release word, which the completion gives (R152, R275) -/
  p5 : Word
  /-- the path class of the operation, whose acknowledgements the message awaits (R275) -/
  cls : Nat
  deriving DecidableEq, Repr, Inhabited

/-- What every engine command carries for its completion (R272, R273). -/
structure Completion where
  mode : BitVec 3
  tag : BitVec 6
  ctr : BitVec 12
  image : Option ReleaseImage
  level : Nat
  sup : Bool
  part : BitVec 6
  /-- the instruction's word, for event records (R386) -/
  word : BitVec 32
  /-- the number of the command, by which FENCEX tells earlier commands from later ones (R246) -/
  id : Nat
  deriving DecidableEq, Repr, Inhabited

/-- A shape record (R278). -/
structure Shape where
  ndim : Nat
  packed : Bool
  ebits : Nat
  counts : List Nat
  strides : List Int
  deriving DecidableEq, Repr, Inhabited

/-- A copy command (R324). -/
structure CopyCmd where
  src : Shape
  dst : Shape
  srcBase : Word
  dstBase : Word
  fin : Completion
  /-- status and byte count of a copy whose accesses have been made -/
  result : Option (BitVec 16 × Nat)
  deriving DecidableEq, Repr

/-- A generator register copied into a command, with its resolved seed (R298, R327). -/
structure Generator where
  word : BitVec 256
  seed : BitVec 32
  deriving DecidableEq, Repr, Inhabited

/-- Which matrix command (R326). -/
inductive MatrixKind where
  | mma
  | mmac
  | acld
  | acst
  | acz
  | accvt
  deriving DecidableEq, Repr

/-- A matrix command with everything it read at issue (R326 to R331). -/
structure MatrixCmd where
  kind : MatrixKind
  tile : Nat
  src : Nat
  /-- the address of the instruction, for MFPC (R294) -/
  pc : Word
  e0 : Word
  e1 : Word
  e2 : Word
  genA : Option Generator
  genB : Option Generator
  /-- the four doublewords of the scale record (R290) -/
  scales : List Word
  /-- X(ra) and X(rb) of ACLD, ACST, ACCVT -/
  addr : Word
  ctl : Word
  rm : BitVec 3
  fin : Completion
  deriving DecidableEq, Repr

/-- A fetch fault of an operation (R294): kind, operand, address and XFSTAT. -/
structure FetchFault where
  kind : BitVec 2
  opnd : BitVec 2
  addr : Word
  xfstat : Option Word
  deriving DecidableEq, Repr

/-- A started matrix operation (R293). -/
structure MatrixOp where
  cmd : MatrixCmd
  /-- the next chunk -/
  chunk : Nat
  /-- flags, DR and CAUSE so far (R317) -/
  status : BitVec 16
  /-- faulted (R294), and whether its MFETCH is still to be taken -/
  fault : Option FetchFault
  trapPending : Bool
  /-- every chunk has been added -/
  finished : Bool
  deriving DecidableEq, Repr

/-- A piece of a slab that landed or was discarded (R311): its base, face and piece, its bytes, and
whether its size did not match. -/
structure Arrived where
  base : BitVec 32
  face : Nat
  piece : Nat
  bytes : Nat
  mismatch : Bool
  /-- the sender's rule FIXED gave the block (R308) -/
  fixed : Bool
  deriving DecidableEq, Repr

/-- An exchange in flight (R309, R337): the pieces of other cores that it awaits, by face and piece. -/
structure Exchange where
  slot : Nat
  /-- the descriptor, with the boundary rules, as it stood at the start (R336) -/
  desc : List Word
  base : BitVec 32
  fin : Completion
  status : BitVec 16
  waits : List (Nat × Nat)
  deriving DecidableEq, Repr

/-- One face of a grid slot (R305, R312): its two newest landed bases and the pieces held. -/
structure Face where
  newest : Option (BitVec 32)
  older : Option (BitVec 32)
  held : List Slab
  deriving DecidableEq, Repr, Inhabited

/-- A grid slot (R305). -/
structure Grid where
  defined : Bool
  /-- the step at which the slot was defined, for the free values about its neighbours' exchanges (R313) -/
  born : Nat
  /-- the 16 doublewords of the descriptor -/
  desc : List Word
  s : BitVec 32
  faces : Table Face
  /-- base of the last exchange started, and whether it completed (R339) -/
  last : BitVec 32
  lastDone : Bool
  /-- pieces that arrived: of the bases that may still be exchanged, and the newest of each piece (R313) -/
  arrived : List Arrived
  deriving DecidableEq, Repr, Inhabited

/-- A Levee command in q2 (R335, R337): an exchange, or a GRSTEP that starts none; a GRDEF carries its
descriptor. -/
structure LeveeCmd where
  slot : Nat
  base : Option (BitVec 32)
  fin : Completion
  desc : Option (List Word)
  deriving DecidableEq, Repr

/-- The engines that serve the core. -/
structure Engines where
  q0 : List MatrixCmd
  q1 : List CopyCmd
  q2 : List LeveeCmd
  running : Option MatrixOp
  /-- suspended and faulted operations (R293) -/
  waiting : List MatrixOp
  channels : Table (Option CopyCmd)
  shapes : Table (Option Shape)
  grids : Table Grid
  exchanges : List Exchange
  /-- engine completions whose release message waits for acknowledgements (R275) -/
  releases : List ReleaseImage
  deriving DecidableEq, Repr

/-- The state of a barrier at the network's root (R155, R177). -/
structure Root where
  active : Bool := false
  expect : Nat := 0
  arrived : Nat := 0
  phase : BitVec 16 := 0
  joins : Nat := 0
  drops : Nat := 0
  /-- this core's own join, and its own drop, are among them -/
  ownJoin : Bool := false
  ownDrop : Bool := false
  /-- this core's arrival of the phase has been counted (R155) -/
  ownArrived : Bool := false
  /-- how many BARIs reached the root (R177) -/
  epoch : Nat := 0
  deriving DecidableEq, Repr, Inhabited

/-- A flip on its way to the core (R155): the barrier, the new EXPECT, and which requests of this core it
applied. -/
structure Flip where
  n : BitVec 5
  expect : BitVec 12
  joined : Bool
  dropped : Bool
  epoch : Nat
  deriving DecidableEq, Repr

/-- The barrier network as this core's gang sees it. -/
structure Network where
  roots : Table Root
  /-- operations of this core on their way to the root, in order -/
  out : List BarrierOp
  flips : List Flip
  /-- BARIs of other cores that have reached the root and not this core: barrier, count, number -/
  baris : List (BitVec 5 × BitVec 12 × Nat)
  deriving DecidableEq, Repr

/-- The cluster debug module (R371). -/
structure Debug where
  brken : BitVec 4
  step : BitVec 4
  trapen : BitVec 4
  xtin : Bool
  xtout : Bool
  en : Bool
  qfull : BitVec 4
  halted : BitVec 4
  /-- the copy and matrix engines stand still: from the first halt to the first resume (R372, R375) -/
  frozen : Bool
  astat : BitVec 4
  cause : BitVec 8
  /-- DPC0 to DPC3 -/
  dpc : Table Word
  acmd : Word
  adata : Word
  /-- triggers sent to the partition's other clusters (R373) -/
  triggers : Nat
  /-- an engine step that has not ended, since it awaits lines of another device (R377) -/
  engStep : Option Word := none
  deriving DecidableEq, Repr

/-- A loaded flow class (R423, R425). -/
structure FlowClass where
  part : BitVec 6
  cls : BitVec 8
  recs : Nat
  fidw : Nat
  tmo : Nat
  ohand : BitVec 48
  owner : BitVec 18
  /-- the kernel's words after its header, and the timeout entry in words from the packet entry -/
  code : List (BitVec 32)
  timeout : Nat
  table : Table Byte
  tablePoison : Table Bool
  tablen : Nat
  deriving DecidableEq, Repr

/-- A flow record (R423, R424). -/
structure FlowRecord where
  key : FlowKey
  recs : Nat
  data : Table Byte
  poison : Table Bool
  /-- TIME at which the flow's timer started; the timer fired and waits (R425) -/
  since : Word
  fired : Bool
  deriving DecidableEq, Repr

/-- Where a packet in the switch came from, whose buffer it holds until it leaves: this device, a link,
or the emit buffer of a Sedge processor (R405, R418). -/
inductive Origin where
  | own
  | link (n : Nat)
  | sedge (n : Nat)
  deriving DecidableEq, Repr

/-- What waits for a Sedge processor: a classified packet, or a flow's timer that fired (R425, R427). -/
inductive KernelWork where
  | packet (p : Packet) (origin : Origin)
  | timeout (key : FlowKey)
  deriving DecidableEq, Repr

/-- An invocation on a Sedge processor (R421). -/
structure Invocation where
  cls : FlowClass
  fid : Word
  timeout : Bool
  packet : Option Packet
  origin : Origin
  /-- header word 0 and the body as the kernel's stores left them -/
  window : Table Byte
  len : Nat
  scratch : Table Byte
  pc : Word
  x : Table Word
  v : Table (BitVec 512)
  k : Table Word
  fpctl : Word
  vflane : Word
  cycles : Nat
  deriving DecidableEq, Repr

/-- A link of the device (R396, R398, R405 to R407). [log 8: DESIGN CHOICE; 88: DESIGN CHOICE] -/
structure Link where
  down : Bool := false
  replays : Nat := 0
  /-- packets sent and not acknowledged (R398) -/
  sent : List Packet := []
  /-- as a sender: the limits that the peer announced, none before the first, and flits in flight by VC -/
  limit : Table Nat := []
  inFlight : Table Nat := []
  /-- as a receiver: flits received in this period, flits held, limits announced, credits owed -/
  received : Table Nat := []
  occ : Table Nat := []
  announced : Table Nat := []
  target : Table Nat := []
  owed : Table Nat := []
  epoch : BitVec 16 := 0
  /-- control flits sent, 64 bytes each (R407) -/
  flits : List (List Byte) := []
  deriving DecidableEq, Repr, Inhabited

/-- A packet that waits in a switch queue: its age, and the members of an ATOM or CATOM group in
member order (R409), with their requester ids in the order in which they came (R389). -/
structure Queued where
  packet : Packet
  age : Nat
  group : List AtomRequest
  ids : List (BitVec 18) := []
  origin : Origin
  deriving DecidableEq, Repr

/-- A member of a merged request as the switch keeps it (R409): where its reply goes, whether it is
posted, and the switches' entries that the reply meets further on. -/
structure Member where
  dev : BitVec 8
  port : BitVec 10
  core : BitVec 18
  posted : Bool
  tags : List (BitVec 8 × Nat)
  /-- the cores of posted requests in it (R410) -/
  lost : List (BitVec 18)
  deriving DecidableEq, Repr

/-- An entry of the wait buffer (R409): its number, the two members in order, the operand sum of the first,
and the size in bytes. [log 50: DESIGN CHOICE] -/
structure WaitEntry where
  id : Nat
  first : Member
  second : Member
  sum : BitVec 64
  size : Nat
  deriving DecidableEq, Repr

/-- The Carr switch of the device with its links and Sedge processors. -/
structure Fabric where
  /-- the domain, W columns by H rows (R396) -/
  cols : Nat
  rows : Nat
  links : Table Link
  /-- links of other devices that are down: device, link (R398) -/
  farDown : List (BitVec 8 × BitVec 5)
  /-- output queues: output × 8 + VC: 0 to 29 the links, 30 the F-die, 32 to 37 the outputs of the F-die
  crossbar (R395, R402) -/
  outputs : Table (List Queued)
  /-- the VC each output served last (R402) -/
  served : Table Nat
  age : Nat
  wait : List WaitEntry
  /-- the number of the next entry -/
  nextEntry : Nat
  /-- devices whose route changes, until what was sent on the old routes has arrived (R398): packets for
  them wait in the queues of output 31 -/
  changing : List (BitVec 8)
  /-- links of this device whose failure the firmware has reported to the host (R398) -/
  reported : List (BitVec 5)
  /-- classification entries: partition, MATCH, class (R423) -/
  classes : List (BitVec 6 × BitVec 48 × BitVec 8)
  loaded : List FlowClass
  records : List FlowRecord
  sedge : Table (Option Invocation)
  /-- what waits for a kernel, in order (R424, R425, R427) -/
  waiting : List KernelWork
  /-- packets delivered to this device's dies and the CFE, and packets that left on links -/
  delivered : List Packet
  departed : List Packet
  /-- slab pieces for this core of which some packets are still to come (R400) -/
  slabParts : List Slab
  deriving DecidableEq, Repr

/-- A read of host memory in progress (R432). -/
structure HostRead where
  tid : BitVec 16
  addr : Word
  want : Nat
  got : List Byte
  failed : Bool
  deriving DecidableEq, Repr

/-- A command queue of the host (R433). -/
structure Queue where
  elog : Nat
  part : BitVec 6
  vec : BitVec 16
  cring : Word
  pring : Word
  head : Nat
  tail : Nat
  stopped : Bool
  /-- the commands the CFE has read and not taken, oldest first -/
  commands : List (List Byte)
  /-- the program's words after its header, and the signals it may raise (R440) -/
  prog : List (BitVec 32)
  sets : List (BitVec 8)
  loaded : Bool
  memory : Table Byte
  /-- an invocation runs for the queue's command -/
  busy : Bool
  /-- commands taken, and completion records written in all -/
  taken : Nat
  written : Nat
  unreported : Nat
  /-- the age of the device when the oldest unreported completion was written (R448) -/
  oldest : Nat
  /-- the commands, by index, that have launched a gang and have no completion record yet (R435, R445) -/
  owed : List Nat := []
  deriving DecidableEq, Repr

/-- An invocation of a queue program in an execution slot, or waiting in PARKQ (R420, R441). [log 65: DEDUCED] -/
structure QpRun where
  queue : Nat
  command : List Byte
  /-- the program and its signals as they stood at the start -/
  prog : List (BitVec 32)
  sets : List (BitVec 8)
  /-- a launch of this command is queued or runs: its outcome completes the command (R443, R445) -/
  launched : Bool
  scratch : Table Byte
  pc : Word
  x : Table Word
  fpctl : Word
  deriving DecidableEq, Repr

/-- A waiter of PARKQ (R420, R442). -/
structure Waiter where
  run : QpRun
  signal : BitVec 8
  part : BitVec 6
  since : Word
  examined : Bool
  /-- its signal came; it waits for a free slot -/
  ready : Bool
  deriving DecidableEq, Repr

/-- A partition as the CFE holds it (R357, R439). -/
structure Partition where
  id : BitVec 6
  partid : Word
  fhand : Word
  keymask : Word
  xroot : Word
  prect : List Word
  slat : Word
  rlog : BitVec 3
  sliceOn : Bool
  area : BitVec 44
  lvkeep : BitVec 24
  lmkeep : BitVec 16
  peat : BitVec 2
  replim : BitVec 32
  logVa : Word
  logSize : Word
  deriving DecidableEq, Repr

/-- A launch that waits (R420, R443). -/
structure Launch where
  gang : BitVec 32
  range : Bool
  part : BitVec 6
  header : List Byte
  block : List Byte
  queue : Nat
  /-- the index of the command among its queue's, and its TAG -/
  index : Nat := 0
  tag : BitVec 32
  deriving DecidableEq, Repr

/-- The record of a die in a range launch (R446). -/
structure RangeRecord where
  die : BitVec 2
  next : Word
  fin : Word
  deriving DecidableEq, Repr

/-- A running gang (R445). -/
structure Gang where
  id : BitVec 32
  part : BitVec 6
  rect : Word
  queue : Nat
  /-- the index of the launching command among its queue's, and its TAG -/
  index : Nat := 0
  tag : BitVec 32
  retired : List Nat
  fenced : Bool
  chunk : Word
  ranges : List RangeRecord
  hdr0 : Word
  payload : List Word
  deriving DecidableEq, Repr

/-- One Peat record (R389). [log 58: DESIGN CHOICE] -/
structure PeatRecord where
  unit : LogUnit
  part : BitVec 6
  a : Word
  b : Word
  /-- the requester ids of a combined group, in order -/
  ids : List (BitVec 18) := []
  deriving DecidableEq, Repr

/-- The log stream of a unit in the log area of a partition (R389, R438): where it begins and how long it is, in
units of 64 KiB, and how many 16-byte records stand in it. -/
structure Stream where
  part : BitVec 6
  unit : LogUnit
  first : Nat
  units : Nat
  count : Nat
  deriving DecidableEq, Repr

/-- The divergence record of a unit that has stopped forcing (R391). -/
structure Divergence where
  part : BitVec 6
  unit : LogUnit
  info : Word
  deriving DecidableEq, Repr

/-- A ring in host memory (R438). -/
structure Ring where
  addr : Word
  slog : Nat
  tailw : Word
  count : Nat
  deriving DecidableEq, Repr

/-- A watchpoint comparator (R378). -/
structure Comparator where
  die : BitVec 2
  slice : BitVec 6
  comp : BitVec 3
  waddr : Word
  wcfg : Word
  deriving DecidableEq, Repr

/-- The command front end with the host aperture's registers, and the parts of the device that the
CFE and the firmware rule. [log 69: DEDUCED] -/
structure Cfe where
  /-- nanoseconds since the device's reset (R32, R448) -/
  age : Nat
  bootReason : BitVec 8
  fails : Nat
  bootState : BitVec 2
  hold : Nat
  coalesce : BitVec 8
  cfewd : BitVec 32
  pwrcap : Nat
  aqcring : Word
  aqpring : Word
  aqVec : BitVec 16
  aqElog : Nat
  /-- writes of AQCRING, AQPRING, AQCFG that wait for an idle queue 0 (R430) -/
  aqPending : List (BitVec 12 × Word)
  queues : Table (Option Queue)
  slots : Table (Option QpRun)
  waiters : List Waiter
  /-- signal counts by partition × 256 + n (R420) -/
  signals : Table (BitVec 32)
  /-- the queue served last in the rotation of R441 -/
  lastQueue : Nat
  partitions : List Partition
  /-- region-owner table by PA / 2^29: none SHARED with owner 0 (R358, R439) -/
  owners : Table (Option (BitVec 6))
  gangs : List Gang
  launches : List Launch
  /-- the administrative command in progress and its read of host memory -/
  command : Option (List Byte)
  read : Option HostRead
  /-- reads of queues' command rings in progress -/
  fetches : List (Nat × HostRead)
  nextTid : BitVec 16
  /-- host writes whose acknowledgement waits for invalidations (R429) -/
  hostAcks : List (BitVec 16)
  /-- packets to the host, in order (R432) -/
  toHost : List HtlPacket
  hostDown : Bool
  fenced : BitVec 160
  rasRing : Option Ring
  watchRings : Table (Option Ring)
  comparators : List Comparator
  /-- RAS records written, 32 bytes as four words each (R353) -/
  ras : List (List Word)
  /-- the streams of the log areas, the records that units have still to write to them, and those that are to be
  replayed (R389, R390) -/
  streams : List Stream
  peatLog : List PeatRecord
  replay : List PeatRecord
  /-- the divergence records, in order, of the units that stopped forcing (R391) -/
  diverged : List Divergence
  /-- clock steps of 5 % below the full clock, by die (R451) -/
  throttle : Table Nat
  /-- the firmware image slot was written by FWLOAD -/
  image : List Byte
  deriving DecidableEq, Repr

/-- A saved context (R365): what of it the spec places nowhere in the area. [log 33: DESIGN CHOICE] -/
structure Context where
  /-- the number of the free values that the record's bytes without a layout hold -/
  image : Nat
  cpu : Core
  eng : Engines
  /-- the barrier network of the gang that the core left with its partition -/
  net : Network
  /-- the cores of the cluster that the record was taken in debug mode of, and whether its engines stood
  still (R372) -/
  halted : BitVec 4
  frozen : Bool
  identity : List Word
  deriving DecidableEq, Repr

/-- What happens by itself once its condition holds: the events of the opcode table that an agent of the
model brings about. [log 2: DESIGN CHOICE] -/
inductive Move where
  | drain
  | queue
  | inbox
  | placed
  | resume
  | kept (k : Kept)
  | performed (id : Nat)
  | fetchAhead
  | invalidation (line : LineId)
  | acknowledgement (line : LineId) (src : Sharer)
  | monitorDecrement (d : MonitorDecrement) (status : BitVec 16)
  | monitorRemoval
  | barrierAtRoot
  | barrierFlip (n : BitVec 5)
  | bari (n : BitVec 5) (count : BitVec 12)
  | copyStart
  | copyComplete (ch : BitVec 4)
  | matrixStart
  | matrixChunk
  | matrixFault
  | matrixComplete
  | leveeTake
  | stallLimit
  | sliceInstant
  | sliceDeadline
  | watchdog
  | sample
  | output (out : Nat)
  | kernel
  | flowTimer (key : FlowKey)
  | deadline (proc : BitVec 4)
  | configure
  | program
  | parkqLimit (q : BitVec 8)
  | launch
  | gangEnd (gang : BitVec 32)
  | chunk (die : BitVec 2)
  | hold (q : BitVec 8)
  | stream
  | time
  | access
  | engineStep
  deriving DecidableEq, Repr

/-- What a packet of the fabric brings about at an L2 slice of this device, at this core or at the CFE, as
the event of its kind (R400). [log 51: DESIGN CHOICE] -/
inductive Arrival where
  | fill (line : LineId) (q : FillRequest)
  | data (line : LineId) (r : LineReply)
  | notice (line : LineId) (q : GrantRequest)
  | grant (line : LineId) (a : GrantAnswer)
  | wb (line : LineId) (w : WriteBack)
  | inv (line : LineId) (part : BitVec 6)
  | ack (line : LineId) (src : Sharer)
  | atom (r : AtomRequest)
  | catom (g : List AtomRequest)
  | atomr (r : AtomReply)
  | mdec (d : MonitorDecrement) (status : BitVec 16)
  | slab (p : Packet)
  | ctrl (c : Control)
  /-- the trigger of a watch report (R373) -/
  | watch
  deriving DecidableEq, Repr

/-- An agenda entry: what acts next, read by the step before anything else: a processor, an event of the
opcode table, a command of queue 0 that goes on, or a packet that the switch has handed to this core's
port. [log 2: DESIGN CHOICE; 3: DESIGN CHOICE; 51: DESIGN CHOICE] -/
inductive Act where
  | turn (p : Proc)
  | event (i : Instr)
  | move (m : Move)
  | command
  | message (m : Message) (spawn : Bool) (part : BitVec 6)
  | decrement (d : Decrement)
  | park (r : ParkRequest)
  | arrival (a : Arrival)
  deriving DecidableEq, Repr

/-- The model's own bookkeeping, no part of the hardware. [log 2: DESIGN CHOICE] -/
structure Own where
  /-- what acts next, in order; when empty the machine proceeds by itself -/
  agenda : List Act
  /-- whose instruction runs next -/
  turn : Proc
  /-- the last instruction attempt had not begun (R13) -/
  stalled : Bool
  /-- the access for which replay stalled the core's instruction at its last attempt (R390, R391) -/
  holding : Option PeatRecord := none
  /-- how many steps were taken, and how many free values were drawn -/
  tick : Nat
  draws : Nat
  deriving DecidableEq, Repr

/-- The machine. [log 3: DESIGN CHOICE] -/
structure State where
  cpu : Core
  mem : Mem
  eng : Engines
  net : Network
  dbg : Debug
  fab : Fabric
  cfe : Cfe
  contexts : List Context
  own : Own
  deriving DecidableEq, Repr

/-- The core right after reset (R10, R28 to R32, R142 to R157). [log 4: DESIGN CHOICE; 5: DESIGN CHOICE] -/
def Core.reset : Core where
  frames := []
  trap := none
  v := []
  k := []
  e := []
  g := []
  tiles := []
  sc := []
  fpctl := []
  bar := []
  tags := 0
  time := 0
  synced := false
  cyc := 0
  retired := 0
  trapCause := 0
  trapPc := 0
  trapVal := 0
  coreId := 0
  badMsg := false
  dcLost := false
  scrcfg := 0xE0004
  dcbase := 0
  dacbase := 0
  arms := []
  vflane := 0
  stashcfg := 0
  xroot := 0
  xfstat := 0
  raceinfo := 0
  monitors := []
  engstat := 0
  mfault := 0
  mfpc := 0
  tvec := 0
  tscr := 0
  partid := 0
  fhand := 0
  keymask := 0
  prect := []
  slat := 0
  slcfg := 0
  slkeep := 0xFFFFFFFFFF
  cntcfg := 0
  cnt := []
  pcscfg := 0
  pcsbase := 0
  pcsidx := 0
  evbase := 0
  evcfg := 0
  evidx := 0
  evLost := []
  peatcfg := 0
  ceil := []
  claims := []
  queues := []
  port := []
  q3 := []
  q3Out := []
  lateRing := none
  latePort := []
  parked := none
  parkWaits := false
  resuming := none
  halted := false
  trapWaits := false
  stepping := false
  wdCount := 0
  wdPosted := false
  switching := false
  saving := none
  away := false
  poweredOff := false
  member := false
  inFlight := []
  nextId := 0
  acks := []
  stale := []
  badCode := []
  bankPoison := []
  image := []
  ldhsSince := none

/-- Memory with nothing listed. [log 6: DESIGN CHOICE; 7: DESIGN CHOICE] -/
def Mem.reset : Mem where
  lmem := []
  lpoison := []
  pmem := []
  ppoison := []
  pkey := []
  unknown := []
  stashcfgs := []
  l2 := []
  buffer := []
  stash := []
  plru := []
  grants := []
  dir := []
  peers := []
  monitors := []
  kept := []
  tlb := []
  oldEntries := []
  tlbinvs := []
  shadows := []
  invs := []
  requested := []
  firings := []
  owed := []
  removals := []
  refusals := []

/-- The engines with empty queues and slots (R13, R278, R305). [log 7: DESIGN CHOICE] -/
def Engines.reset : Engines where
  q0 := []
  q1 := []
  q2 := []
  running := none
  waiting := []
  channels := []
  shapes := []
  grids := []
  exchanges := []
  releases := []

/-- The command front end at the aperture's reset values (R430), with queue 0 alone (R433). [log 7: DESIGN CHOICE; 9: DESIGN CHOICE] -/
def Cfe.reset : Cfe where
  age := 0
  bootReason := 0
  fails := 0
  bootState := 0
  hold := 10
  coalesce := 16
  cfewd := 1000
  pwrcap := 3000
  aqcring := 0
  aqpring := 0
  aqVec := 0
  aqElog := 4
  aqPending := []
  queues := [(0, some { elog := 4, part := 0, vec := 0, cring := 0, pring := 0, head := 0, tail := 0, stopped := false, commands := [], prog := [], sets := [], loaded := false, memory := [], busy := false, taken := 0, written := 0, unreported := 0, oldest := 0 })]
  slots := []
  waiters := []
  signals := []
  lastQueue := 0
  partitions := []
  owners := []
  gangs := []
  launches := []
  command := none
  read := none
  fetches := []
  nextTid := 0
  hostAcks := []
  toHost := []
  hostDown := false
  fenced := 0
  rasRing := none
  watchRings := []
  comparators := []
  ras := []
  streams := []
  peatLog := []
  replay := []
  diverged := []
  throttle := []
  image := []

/-- The machine right after reset. [log 7: DESIGN CHOICE; 8: DESIGN CHOICE; 9: DESIGN CHOICE] -/
def State.reset : State where
  cpu := Core.reset
  mem := Mem.reset
  eng := Engines.reset
  net := { roots := [], out := [], flips := [], baris := [] }
  dbg := { brken := 0, step := 0, trapen := 0, xtin := false, xtout := false, en := false, qfull := 0, halted := 0, frozen := false, astat := 0, cause := 0, dpc := [], acmd := 0, adata := 0, triggers := 0 }
  fab := { cols := 16, rows := 16, links := [], farDown := [], outputs := [], served := [], age := 0, wait := [], nextEntry := 0, changing := [], reported := [], classes := [], loaded := [], records := [], sedge := [], waiting := [], delivered := [], departed := [], slabParts := [] }
  cfe := Cfe.reset
  contexts := []
  own := { agenda := [], turn := .core, stalled := false, tick := 0, draws := 0 }

end Sys2Proof.Machine
end

