-- ==== Sys2Proof/Machine/Regs.lean ====
section
/-! DEFINITION. The registers of the running processor: the window of the running frame or of the
trap frame, the level's banks, and the registers of a Sedge processor or of a queue program. Every
read and write of a register goes through the functions of this file. -/

namespace Sys2Proof.Machine

/-- The level of the running frame, LEVEL.LVL; 0 while the core is idle (R30). -/
def level (s : State) : Nat :=
  match s.cpu.frames with
  | [] => 0
  | f :: _ => f.level

/-- No frame is running (R30). -/
def isIdle (s : State) : Bool := s.cpu.frames.isEmpty

/-- The mode, STATUS.MODE: 0 user, 1 supervisor, 3 debug (R21, R29). -/
def mode (s : State) : BitVec 2 :=
  if s.cpu.halted then 3
  else if s.cpu.trap.isSome then 1
  else match s.cpu.frames with
    | [] => 1
    | f :: _ => if 20 ≤ f.level then 1 else 0

/-- The core runs in user mode. -/
def isUser (s : State) : Bool := decide (mode s = 0)

/-- The value of STATUS (R29). A trap frame has no header: in one VEC and MAT
show the bits of the trapped frame, and WCODE reads 3 (R345). [log 82: DESIGN CHOICE] -/
def statusWord (s : State) : Word :=
  let f := s.cpu.frames.head?
  at_ 11 (bnat s.cpu.trap.isSome) ||| at_ 9 (bnat (f.any (·.mat))) ||| at_ 8 (bnat (f.any (·.vec)))
    ||| at_ 6 (if s.cpu.trap.isSome then 3 else (f.map (·.wcode.toNat)).getD 0) ||| at_ 0 (mode s).toNat

/-- The value of THR (R30). -/
def thrWord (s : State) : Word :=
  match s.cpu.frames with
  | [] => 0x80
  | f :: _ => word f.thr

/-- The value of LEVEL (R30). -/
def levelWord (s : State) : Word :=
  match s.cpu.frames with
  | [] => 0x80
  | f :: _ => word f.level

/-- How many general registers the window holds (R15, R345, R421, R441). -/
def windowSize (s : State) : Nat :=
  match s.own.turn with
  | .core =>
    if s.cpu.trap.isSome then 32
    else match s.cpu.frames with
      | [] => 32
      | f :: _ => 8 * (f.wcode.toNat + 1)
  | _ => 32

/-- The window of the running processor. -/
def window (s : State) : Table Word :=
  match s.own.turn with
  | .core =>
    match s.cpu.trap with
    | some t => t.regs
    | none =>
      match s.cpu.frames with
      | [] => []
      | f :: _ => f.regs
  | .sedge n =>
    match s.fab.sedge.get n with
    | some i => i.x
    | none => []
  | .cfe n =>
    match s.cfe.slots.get n with
    | some r => r.x
    | none => []

/-- X(i) (R11, R73): x0 reads zero. -/
def readX (s : State) (i : Reg) : Word := if i = 0 then 0 else (window s).get i.toNat

/-- The registers of the running window that hold a poisoned value. -/
def poisonMarks (s : State) : List PoisonMark :=
  match s.own.turn with
  | .core =>
    match s.cpu.trap with
    | some t => t.poison
    | none =>
      match s.cpu.frames with
      | [] => []
      | f :: _ => f.poison
  | _ => []

/-- Replace the running frame. -/
def setTop (s : State) (f : Frame) : State :=
  { s with cpu := { s.cpu with frames := f :: s.cpu.frames.tail } }

/-- Write a register of the running window, by number; a write clears its poison (R258). -/
def putX (s : State) (i : Nat) (v : Word) : State :=
  match s.own.turn with
  | .core =>
    match s.cpu.trap with
    | some t =>
      { s with cpu := { s.cpu with trap := some { t with regs := t.regs.set i v, poison := t.poison.filter fun p => p.reg ≠ i } } }
    | none =>
      match s.cpu.frames with
      | [] => s
      | f :: fs =>
        { s with cpu := { s.cpu with frames := { f with regs := f.regs.set i v, poison := f.poison.filter fun p => p.reg ≠ i } :: fs } }
  | .sedge n =>
    match s.fab.sedge.get n with
    | some c => { s with fab := { s.fab with sedge := s.fab.sedge.set n (some { c with x := c.x.set i v }) } }
    | none => s
  | .cfe n =>
    match s.cfe.slots.get n with
    | some r => { s with cfe := { s.cfe with slots := s.cfe.slots.set n (some { r with x := r.x.set i v }) } }
    | none => s

/-- A processor runs: a frame or the trap frame of the core, an invocation of a Sedge processor, or one of
a queue program. -/
abbrev Running (s : State) : Prop :=
  match s.own.turn with
  | .core => s.cpu.trap.isSome = true ∨ s.cpu.frames ≠ []
  | .sedge n => (s.fab.sedge.get n).isSome = true
  | .cfe n => (s.cfe.slots.get n).isSome = true

/-- X(i) := v; an assignment to x0 has no effect (R11, R73). -/
def writeX (s : State) (i : Reg) (v : Word) : State := if i = 0 then s else putX s i.toNat v

/-- PC: the address of the instruction (R33, R73). -/
def readPc (s : State) : Word :=
  match s.own.turn with
  | .core =>
    match s.cpu.trap with
    | some t => t.pc
    | none =>
      match s.cpu.frames with
      | [] => 0
      | f :: _ => f.pc
  | .sedge n =>
    match s.fab.sedge.get n with
    | some i => i.pc
    | none => 0
  | .cfe n =>
    match s.cfe.slots.get n with
    | some r => r.pc
    | none => 0

/-- PC := v. -/
def writePc (s : State) (v : Word) : State :=
  match s.own.turn with
  | .core =>
    match s.cpu.trap with
    | some t => { s with cpu := { s.cpu with trap := some { t with pc := v } } }
    | none =>
      match s.cpu.frames with
      | [] => s
      | f :: fs => { s with cpu := { s.cpu with frames := { f with pc := v } :: fs } }
  | .sedge n =>
    match s.fab.sedge.get n with
    | some c => { s with fab := { s.fab with sedge := s.fab.sedge.set n (some { c with pc := v }) } }
    | none => s
  | .cfe n =>
    match s.cfe.slots.get n with
    | some r => { s with cfe := { s.cfe with slots := s.cfe.slots.set n (some { r with pc := v }) } }
    | none => s

/-- v(i) of the current level's bank, or of the Sedge processor (R10, R421). -/
def readV (s : State) (i : Nat) : BitVec 512 :=
  match s.own.turn with
  | .sedge n =>
    match s.fab.sedge.get n with
    | some c => c.v.get i
    | none => 0
  | _ => s.cpu.v.get (16 * level s + i)

/-- v(i) := x; a write clears the register's error (R223). -/
def writeV (s : State) (i : Nat) (x : BitVec 512) : State :=
  match s.own.turn with
  | .sedge n =>
    match s.fab.sedge.get n with
    | some c => { s with fab := { s.fab with sedge := s.fab.sedge.set n (some { c with v := c.v.set i x }) } }
    | none => s
  | _ => { s with cpu := { s.cpu with v := s.cpu.v.set (16 * level s + i) x, bankPoison := s.cpu.bankPoison.set (128 * level s + 32 + i) false } }

/-- k(i) of the current level's bank (R10, R12). -/
def readK (s : State) (i : Nat) : Word :=
  match s.own.turn with
  | .sedge n =>
    match s.fab.sedge.get n with
    | some c => c.k.get i
    | none => 0
  | _ => s.cpu.k.get (8 * level s + i)

/-- k(i) := x; a write clears the register's error. -/
def writeK (s : State) (i : Nat) (x : Word) : State :=
  match s.own.turn with
  | .sedge n =>
    match s.fab.sedge.get n with
    | some c => { s with fab := { s.fab with sedge := s.fab.sedge.set n (some { c with k := c.k.set i x }) } }
    | none => s
  | _ => { s with cpu := { s.cpu with k := s.cpu.k.set (8 * level s + i) x, bankPoison := s.cpu.bankPoison.set (128 * level s + 48 + i) false } }

/-- FPCTL of the current level, or of the Sedge processor or queue program (R31, R421). -/
def readFpctl (s : State) : Word :=
  match s.own.turn with
  | .core => s.cpu.fpctl.get (level s)
  | .sedge n =>
    match s.fab.sedge.get n with
    | some c => c.fpctl
    | none => 0
  | .cfe n =>
    match s.cfe.slots.get n with
    | some r => r.fpctl
    | none => 0

/-- FPCTL := x. -/
def writeFpctl (s : State) (x : Word) : State :=
  match s.own.turn with
  | .core => { s with cpu := { s.cpu with fpctl := s.cpu.fpctl.set (level s) x } }
  | .sedge n =>
    match s.fab.sedge.get n with
    | some c => { s with fab := { s.fab with sedge := s.fab.sedge.set n (some { c with fpctl := x }) } }
    | none => s
  | .cfe n =>
    match s.cfe.slots.get n with
    | some r => { s with cfe := { s.cfe with slots := s.cfe.slots.set n (some { r with fpctl := x }) } }
    | none => s

/-- e(i), g(i) and sc(i) of the current level's bank (R10). -/
def readE (s : State) (i : Nat) : Word := s.cpu.e.get (4 * level s + i)

/-- e(i) := x; a write clears the register's error. -/
def writeE (s : State) (i : Nat) (x : Word) : State :=
  { s with cpu := { s.cpu with e := s.cpu.e.set (4 * level s + i) x, bankPoison := s.cpu.bankPoison.set (128 * level s + 56 + i) false } }

/-- g(i) of the current level's bank. -/
def readG (s : State) (i : Nat) : BitVec 256 := s.cpu.g.get (8 * level s + i)

/-- g(i) := x; a write clears the register's error. -/
def writeG (s : State) (i : Nat) (x : BitVec 256) : State :=
  { s with cpu := { s.cpu with g := s.cpu.g.set (8 * level s + i) x, bankPoison := s.cpu.bankPoison.set (128 * level s + 64 + i) false } }

/-- sc(i) of the current level's bank. -/
def readSc (s : State) (i : Nat) : Word := s.cpu.sc.get (4 * level s + i)

/-- Element (row, column) of a tile of a level's bank (R287). -/
def tileKey (lvl tile row col : Nat) : Nat := ((4 * lvl + tile) * 16 + row) * 16 + col

/-- An element of tile `tile` in the bank of level `lvl`. -/
def readTile (s : State) (lvl tile row col : Nat) : BitVec 32 := s.cpu.tiles.get (tileKey lvl tile row col)

/-- Replace all elements of a tile, row by row. -/
def writeTile (s : State) (lvl tile : Nat) (els : List (BitVec 32)) : State :=
  let put := fun (t : Table (BitVec 32)) i => t.set (tileKey lvl tile (i / 16) (i % 16)) (els.getD i 0)
  { s with cpu := { s.cpu with tiles := (List.range 256).foldl put s.cpu.tiles } }

/-- Replace a whole tile from outside it, which clears the register's error. [log 42: DESIGN CHOICE] -/
def replaceTile (s : State) (lvl tile : Nat) (els : List (BitVec 32)) : State :=
  let s := writeTile s lvl tile els
  { s with cpu := { s.cpu with bankPoison := s.cpu.bankPoison.set (128 * lvl + 60 + tile) false } }

/-- The device, die, row and column of a global core id (R25). -/
def idDev (id : BitVec 18) : Nat := field id 10 8
/-- The die. -/
def idDie (id : BitVec 18) : Nat := field id 8 2
/-- y. -/
def idY (id : BitVec 18) : Nat := field id 4 4
/-- x. -/
def idX (id : BitVec 18) : Nat := field id 0 4

/-- This device (R25). -/
def ownDev (s : State) : Nat := idDev s.cpu.coreId

/-- This core's die, as device :: die (R210). -/
def ownDie (s : State) : BitVec 10 := BitVec.ofNat 10 (field s.cpu.coreId 8 10)

/-- The core index within the cluster (R24). -/
def coreIndex (id : BitVec 18) : Nat := idX id % 2 + 2 * (idY id % 2)

/-- Package column and row of a core (R25). -/
def packageX (id : BitVec 18) : Nat := 16 * (idDie id % 2) + idX id
/-- Package row. -/
def packageY (id : BitVec 18) : Nat := 10 * (idDie id / 2) + idY id

/-- A free choice among `n` outcomes, and the state that has drawn it. -/
def draw (s : State) (n : Nat) : Nat × State :=
  (pick (Config.choice s.own.draws) n, { s with own := { s.own with draws := s.own.draws + 1 } })

/-- Count one event in the counters that select it (R384). -/
def countEvent (s : State) (ev amount : Nat) : State :=
  let put := fun (t : Table Word) n =>
    if bit s.cpu.cntcfg (32 + n) && decide (field s.cpu.cntcfg (4 * n) 4 = ev)
    then t.set n (t.get n + word amount) else t
  { s with cpu := { s.cpu with cnt := (List.range 8).foldl put s.cpu.cnt } }

/-- The instruction that waited for lines of another device is over, or another one runs before it: what came
for it is not kept (R209). [log 18: DEDUCED] -/
def dropUsed (s : State) : State :=
  { s with mem := { s.mem with
      refusals := []
      peers := s.mem.peers.filter fun p => decide (p.use ≠ .core)
      requested := s.mem.requested.filter fun r => decide (r.want ≠ .line .core) } }

/-- The instruction retires (R38, R384). -/
def retire (s : State) : State :=
  match s.own.turn with
  | .core => dropUsed (countEvent { s with cpu := { s.cpu with retired := s.cpu.retired + 1 } } 1 1)
  | _ => s

end Sys2Proof.Machine
end

