-- ==== Sys2Proof/Machine/Wire.lean ====
section
/-! DEFINITION. Packets on their way (R395 to R400): routes, classification, queues of the device's
Carr switch and the merging of fetch-and-add requests. -/

namespace Sys2Proof.Machine

/-- A device of the domain (R396). -/
def inDomain (s : State) (d : Nat) : Bool := decide (d % 16 < s.fab.cols) && decide (d / 16 < s.fab.rows)

/-- The link from device `a` to device `b` of the same row or the same column (R396). -/
def linkTo (a b : Nat) : Option Nat :=
  let c := a % 16
  let r := a / 16
  let c' := b % 16
  let r' := b / 16
  if a = b then none
  else if r = r' then some (if c' < c then c' else c' - 1)
  else if c = c' then some (if r' < r then 15 + r' else 14 + r')
  else none

/-- The device at the other end of a link (R396). -/
def peerOf (a l : Nat) : Nat :=
  let c := a % 16
  let r := a / 16
  if l < 15 then 16 * r + (if l < c then l else l + 1)
  else 16 * (if l - 15 < r then l - 15 else l - 14) + c

/-- A link whose peer lies in the domain (R396). -/
def isConnected (s : State) (l : Nat) : Bool := decide (l < 30) && inDomain s (peerOf (ownDev s) l)

/-- A link of a device is down: one of this device, or of another as far as it has been reported (R398). -/
def isDown (s : State) (dev l : Nat) : Bool :=
  if dev = ownDev s then (s.fab.links.get l).down
  else s.fab.farDown.any fun x => decide (x.1.toNat = dev) && decide (x.2.toNat = l)

/-- The link between two devices of one row or column carries traffic: neither end is down. -/
def linkUsable (s : State) (a b : Nat) : Bool :=
  match linkTo a b, linkTo b a with
  | some l, some m => inDomain s a && inDomain s b && !(isDown s a l) && !(isDown s b m)
  | _, _ => false

/-- A path whose hops are all usable (R398). -/
def pathUsable (s : State) : List Nat → Bool
  | a :: b :: t => linkUsable s a b && pathUsable s (b :: t)
  | _ => true

/-- The routes from device `a` to device `b` in order of preference: the fixed route of R397 and the
alternates of R398. -/
def routes (s : State) (a b : Nat) : List (List Nat) :=
  let ca := a % 16
  let ra := a / 16
  let cb := b % 16
  let rb := b / 16
  let colsOf := fun (x y : Nat) => (List.range s.fab.cols).filter fun k => decide (k ≠ x) && decide (k ≠ y)
  let rowsOf := fun (x y : Nat) => (List.range s.fab.rows).filter fun k => decide (k ≠ x) && decide (k ≠ y)
  if a = b then [[a]]
  else if ra = rb then
    [[a, b]] ++ (colsOf ca cb).map (fun k => [a, 16 * ra + k, b])
      ++ (rowsOf ra ra).map (fun r => [a, 16 * r + ca, 16 * r + cb, b])
  else if ca = cb then
    [[a, b]] ++ (rowsOf ra rb).map (fun k => [a, 16 * k + ca, b])
      ++ (colsOf ca ca).map (fun c => [a, 16 * ra + c, 16 * rb + c, b])
  else
    [[a, 16 * ra + cb, b], [a, 16 * rb + ca, b]]
      ++ (colsOf ca cb).map (fun k => [a, 16 * ra + k, 16 * rb + k, b])

/-- The first usable route between two devices (R397, R398). -/
def route (s : State) (a b : Nat) : Option (List Nat) := (routes s a b).find? (pathUsable s)

/-- The next device after this one on a path. -/
def nextHop (s : State) (path : List Nat) : Option Nat := (path.dropWhile fun d => decide (d ≠ ownDev s))[1]?

/-- The link on which a packet of device `src` for device `b` goes on: along the route of its pair of
devices, or from here when that route does not pass here (R397, R398). -/
def nextLink (s : State) (src b : Nat) : Option Nat :=
  match (route s src b).bind (nextHop s) with
  | some n => linkTo (ownDev s) n
  | none => ((route s (ownDev s) b).bind (nextHop s)).bind (linkTo (ownDev s))

/-- The output that a packet of device `src` for device `b` takes: 30 is the F-die (R402), and 31 where
packets wait for a route that changes (R398). -/
def outputFor (s : State) (src b : Nat) : Option Nat :=
  if b = ownDev s then some 30
  else if s.fab.changing.contains (BitVec.ofNat 8 b) then (nextLink s src b).map fun _ => 31
  else nextLink s src b

/-- A device that some path reaches (R398). -/
def reachable (s : State) (b : Nat) : Bool := decide (b = ownDev s) || (route s (ownDev s) b).isSome

/-- DPORT and SPORT codes (R399): a core, the CFE, and the L2 slice of a line. -/
def corePort (id : BitVec 18) : BitVec 10 := BitVec.ofNat 10 (field id 0 10)
/-- The code of the CFE. -/
def cfePort : BitVec 10 := 0x0A0
/-- The XOR of the n-bit groups of L (R208). -/
def foldBits (n : Nat) : Nat → Nat → Nat
  | 0, _ => 0
  | k + 1, l => l % 2 ^ n ^^^ foldBits n k (l / 2 ^ n)
/-- fold6(L): the home slice of a line on its die (R208). -/
def homeSlice (l : BitVec 37) : Nat := foldBits 6 7 l.toNat
/-- The home die of a line: PA[38:37] for bonded DRAM, fold2(L) for LPDDR6 (R208). -/
def homeDie (l : BitVec 37) : Nat := if l.toNat < 2 ^ 34 then field l 30 2 else foldBits 2 19 l.toNat
/-- The code of the L2 slice of a die that a line belongs to: die :: 0b11 :: slice (R211, R399). -/
def slicePortOn (die : Nat) (l : BitVec 37) : BitVec 10 := BitVec.ofNat 10 (die % 4 * 256 + 192 + homeSlice l)
/-- The code of the home slice of a line. -/
def slicePort (l : BitVec 37) : BitVec 10 := slicePortOn (homeDie l) l
/-- The code of the peer-copy slice of a line on the core's die. -/
def peerPort (s : State) (l : BitVec 37) : BitVec 10 := slicePortOn (idDie s.cpu.coreId) l
/-- The LPDDR6 channel of a physical address (R208): fold4(PA[43:8]). -/
def lpddrChannel (pa : Nat) : Nat := foldBits 4 9 (pa / 256)

/-- The cluster of a core on its device: 40 for each die, row by row. -/
def clusterOf (id : BitVec 18) : Nat := 40 * idDie id + 8 * (idY id / 2) + idX id / 2

/-- The SENDER of a message from the CFE or the switch (R138, R418). -/
def deviceSender (s : State) (low : Nat) : BitVec 18 := BitVec.ofNat 18 (ownDev s * 1024 + 3 * 256 + low)

/-- The partition of the core: identity word 203, PARTID.PID (R27, R357). -/
def partOf (s : State) : BitVec 6 := BitVec.ofNat 6 (field s.cpu.partid 0 6)

/-- The body's length matches the packet kind (R400). The lengths of NOTICE, ATOM, CATOM, GRANT, CTRL and
the decrements are those of the model's layouts. [log 50: DESIGN CHOICE] -/
def kindAdmits (k : Nat) (body : List Byte) : Bool :=
  let len := body.length
  match k with
  | 0x01 => decide (len = 64)
  | 0x02 => decide (len = 4)
  | 0x03 => decide (len = 5)
  | 0x04 | 0x09 | 0x0C => decide (len = 0)
  | 0x05 | 0x0B => decide (len = 6)
  | 0x06 | 0x07 => decide (len = 38)
  | 0x08 => decide (len = 8 + 8 * popCount (ofBytes (body.take 2)) 16)
  | 0x0A => decide (len = 128)
  | 0x0D => decide (len = 8) || decide (len = 16)
  | 0x0E => decide (len ≤ 4096)
  | 0x0F => decide (len = 24)
  | _ => false

/-- Relaxed AMOADD or REDADD requests of 4 or 8 bytes, which a switch may merge (R259, R408). -/
def combinable (r : AtomRequest) : Bool :=
  (decide (r.op = 0) || decide (r.op = 11)) && decide (r.order = 0)
    && (decide (r.size = 2) || decide (r.size = 3))

/-! ## Peat streams (R240, R388 to R391) -/

/-- PEATCFG.MODE. -/
def peatMode (s : State) : Nat := field s.cpu.peatcfg 0 2

/-- PEATCFG of a partition's cores (R388). -/
def peatWord (p : Partition) : Word := at_ 32 p.replim.toNat ||| at_ 0 p.peat.toNat

/-- The Peat mode of a partition (R388): of the core's own in PEATCFG, of another as the CFE keeps it. -/
def peatModeOf (s : State) (part : BitVec 6) : Nat :=
  if part = partOf s then peatMode s else ((s.cfe.partitions.find? fun p => decide (p.id = part)).map (·.peat.toNat)).getD 0

/-- The unit kind of a stream's directory entry, with its number (R438). -/
def unitCode (u : LogUnit) : Nat :=
  match u with
  | .core => 0
  | .slice n => 1 + 4 * n.toNat
  | .switch => 2
  | .cfe => 3

/-- The number by which a unit is known beside its kind (R438): core id, slice number or device. -/
def unitNumber (s : State) (u : LogUnit) : Nat :=
  match u with
  | .core => s.cpu.coreId.toNat
  | .slice n => n.toNat
  | .switch => ownDev s
  | .cfe => ownDev s

/-- The 16-byte records that a record takes (R389): one, and one for each two requesters of a group. [log 58: DESIGN CHOICE] -/
def recordSize (r : PeatRecord) : Nat := 1 + (r.ids.length + 1) / 2

/-- Record a choice in record mode (R389); a stream that is full records no more (R438). -/
def peatRecord (s : State) (r : PeatRecord) : State :=
  let mine := s.cfe.peatLog.filter fun x => decide (x.unit = r.unit) && decide (x.part = r.part)
  let pending := mine.foldl (fun n x => n + recordSize x) 0
  let room := s.cfe.streams.any fun x => decide (x.unit = r.unit) && decide (x.part = r.part) && decide (x.count + pending + recordSize r ≤ 4096 * x.units)
  if peatModeOf s r.part = 1 && room then { s with cfe := { s.cfe with peatLog := s.cfe.peatLog ++ [r] } } else s

/-- A unit follows the replay stream of a partition (R390, R391). -/
def isForcedIn (s : State) (part : BitVec 6) (u : LogUnit) : Bool :=
  decide (peatModeOf s part = 2) && !(s.cfe.diverged.any fun d => decide (d.unit = u) && decide (d.part = part))

/-- A unit writes a divergence record and stops forcing in a partition (R391). [log 43: DESIGN CHOICE] -/
def diverge (s : State) (part : BitVec 6) (u : LogUnit) : State :=
  let d : Divergence := { part := part, unit := u, info := at_ 56 (unitCode u % 4) ||| word (unitNumber s u) }
  { s with cfe := { s.cfe with diverged := s.cfe.diverged ++ [d] } }

/-- A recorded choice is made: recorded, or in replay taken from the stream; a choice that the stream
does not name ends the forcing. -/
def logChoice (s : State) (r : PeatRecord) : State :=
  if isForcedIn s r.part r.unit then
    if s.cfe.replay.contains r then { s with cfe := { s.cfe with replay := s.cfe.replay.erase r } }
    else diverge s r.part r.unit
  else peatRecord s r

/-- In replay a choice is held while the stream names it later than another (R390). [log 43: DESIGN CHOICE] -/
def replayHolds (s : State) (r : PeatRecord) : Bool :=
  isForcedIn s r.part r.unit && s.cfe.replay.contains r &&
    decide ((s.cfe.replay.find? fun x => decide (x.unit = r.unit) && decide (x.part = r.part)) ≠ some r)

/-- The choices made between two states were taken from each stream in its order (R390). -/
def replayInOrder (s t : State) : Bool :=
  s.cfe.replay.all fun x =>
    let own := fun (l : List PeatRecord) => l.filter fun r => decide (r.unit = x.unit) && decide (r.part = x.part)
    (own t.cfe.replay).isSuffixOf (own s.cfe.replay)

/-- The record of an access that a home slice performs on a logged line: line, requester, and 1 read,
2 write, 3 atomic (R389). -/
def sliceRecord (part : BitVec 6) (line : BitVec 37) (who kind : Nat) : PeatRecord :=
  { unit := .slice (BitVec.ofNat 8 (homeDie line * 64 + homeSlice line)), part := part, a := zextField line, b := at_ 32 kind ||| word who }

/-- The record of a group that the switch combined: its address and the requester ids in order (R389). -/
def groupRecord (part : BitVec 6) (pa : BitVec 44) (ids : List (BitVec 18)) : PeatRecord :=
  { unit := .switch, part := part, a := zextField pa, b := word ids.length, ids := ids }

/-- A recorded group of an address. -/
def isGroupAt (part : BitVec 6) (pa : BitVec 44) (r : PeatRecord) : Bool :=
  decide (r.unit = .switch) && decide (r.part = part) && decide (r.a = zextField pa)

/-- In replay the switch combines only what a recorded group holds, in the recorded order (R389, R390). -/
def mayCombine (s : State) (part : BitVec 6) (pa : BitVec 44) (ids : List (BitVec 18)) : Bool :=
  !(isForcedIn s part .switch) || s.cfe.replay.any fun r => isGroupAt part pa r && ids.isPrefixOf r.ids

/-- In replay a request waits for the others of its recorded group (R390). [log 43: DESIGN CHOICE] -/
def awaitsGroup (s : State) (q : Queued) : Bool :=
  match q.group with
  | [] => false
  | a :: _ =>
    isForcedIn s a.part .switch && q.group.all combinable
      && s.cfe.replay.any fun r => isGroupAt a.part a.pa r && (q.ids.all fun i => decide (q.ids.count i ≤ r.ids.count i)) && decide (q.ids ≠ r.ids)

/-- The size of an atomic in bytes. -/
def atomSize (r : AtomRequest) : Nat := if r.op = 10 then 16 else 2 ^ r.size.toNat

/-- The operand sum of a group, wrapping at its size (R408). -/
def groupSum (g : List AtomRequest) : Nat :=
  (g.foldl (fun a r => a + r.new.toNat) 0) % 2 ^ (8 * (g.head?.map atomSize).getD 8)

/-- The lowest requester id of a group (R409). -/
def lowestCore (g : List AtomRequest) : Nat := g.foldl (fun a r => min a r.core.toNat) (2 ^ 18)

/-- Whether a packet and a waiting one form a group (R408): equal DDEV, PA, size, key id and PART. -/
def mergeable (s : State) (q p : Queued) : Bool :=
  match q.group, p.group with
  | a :: _, b :: _ =>
    q.group.all combinable && p.group.all combinable
      && decide (q.packet.ddev = p.packet.ddev) && decide (a.pa = b.pa) && decide (a.size = b.size)
      && decide (a.key = b.key) && decide (a.part = b.part)
      && ((q.group ++ p.group).all (·.posted) || decide (s.fab.wait.length < 4096))
  | _, _ => false

/-- The body of an ATOM or CATOM packet (R400). [log 50: DESIGN CHOICE] -/
def atomBytes (r : AtomRequest) : List Byte :=
  toBytes 1 r.op.toNat ++ toBytes 1 (r.size.toNat + 4 * r.order.toNat + 16 * bnat r.posted + 32 * bnat r.logged) ++ toBytes 1 r.key.toNat
    ++ toBytes 3 r.core.toNat ++ toBytes 16 r.exp.toNat ++ toBytes 16 r.new.toNat

/-- The request that an ATOM or CATOM packet carries: a group counts as one. -/
def packetRequest (p : Packet) : AtomRequest :=
  let b := p.body
  let f := ofBytes ((b.drop 1).take 1)
  { op := BitVec.ofNat 6 (ofBytes (b.take 1)), size := BitVec.ofNat 2 f, order := BitVec.ofNat 2 (f / 4), posted := decide (f / 16 % 2 = 1), pa := p.pa,
    part := p.part, key := BitVec.ofNat 6 (ofBytes ((b.drop 2).take 1)), core := BitVec.ofNat 18 (ofBytes ((b.drop 3).take 3)),
    exp := BitVec.ofNat 128 (ofBytes ((b.drop 6).take 16)), new := BitVec.ofNat 128 (ofBytes ((b.drop 22).take 16)), logged := decide (f / 32 % 2 = 1),
    via := some (p.sdev, p.sport), tags := p.tags,
    lost := if p.lost.isEmpty && decide (f / 16 % 2 = 1) then [BitVec.ofNat 18 (ofBytes ((b.drop 3).take 3))] else p.lost }

/-- The requests of a packet that comes from elsewhere. -/
def packetGroup (p : Packet) : List AtomRequest := if p.kind = 6 || p.kind = 7 then [packetRequest p] else []

/-- The request that a group is (R408): its operand is the sum, and it is posted when every member is. -/
def wholeRequest (g : List AtomRequest) : AtomRequest :=
  { (g.head?.getD default) with op := 0, order := 0, posted := g.all (·.posted), core := BitVec.ofNat 18 (lowestCore g), new := BitVec.ofNat 128 (groupSum g) }

/-- The cores of the posted requests of a queued request, when all of it is posted (R410). -/
def lostOf (q : Queued) : List (BitVec 18) :=
  if q.group.all (·.posted) then (if q.packet.lost.isEmpty then q.group.map (·.core) else q.packet.lost) else []

/-- A queued request as a member of a merged one (R409). -/
def memberOf (q : Queued) : Member :=
  { dev := q.packet.sdev, port := q.packet.sport, core := BitVec.ofNat 18 (lowestCore q.group), posted := q.group.all (·.posted), tags := q.packet.tags, lost := lostOf q }

/-- Two queued requests merged, the first before the second: a CATOM whose reply comes to this switch, and
the entry of the wait buffer, none when every member is posted (R408, R409). -/
def mergePair (s : State) (place x y : Queued) : Queued × Option WaitEntry :=
  let g := x.group ++ y.group
  let w := wholeRequest g
  let own := BitVec.ofNat 8 (ownDev s)
  let tags := if w.posted then [] else [(own, s.fab.nextEntry)]
  let lost := if w.posted then lostOf x ++ lostOf y else []
  let p : Packet := { place.packet with kind := 7, sdev := own, sport := x.packet.sport, tags := tags, lost := lost, body := atomBytes w }
  ({ place with group := g, packet := p },
    if w.posted then none
    else some { id := s.fab.nextEntry, first := memberOf x, second := memberOf y, sum := BitVec.ofNat 64 (groupSum x.group), size := atomSize w })

/-- The order in which the requests of two queued ones came: the waiting one's first, or in replay the recorded
order, none where no recorded group has them (R389, R390). -/
def mergeOrder (s : State) (q p : Queued) : Option (List (BitVec 18)) :=
  [q.ids ++ p.ids, p.ids ++ q.ids].find? (mayCombine s p.packet.part p.packet.pa)

/-- The first queued request that the packet merges with, replaced by the merged group: the queue, the group, and its
entry. -/
def mergeInto (s : State) (p : Queued) : List Queued → Option (List Queued × Queued × Option WaitEntry)
  | [] => none
  | q :: t =>
    let xy := if lowestCore q.group ≤ lowestCore p.group then (q, p) else (p, q)
    match (if mergeable s q p then mergeOrder s q p else none) with
    | some ids =>
      let m := mergePair s q xy.1 xy.2
      let g := { m.1 with ids := ids }
      some (g :: t, g, m.2)
    | none => (mergeInto s p t).map fun r => (q :: r.1, r.2)

/-- A link of this device. -/
def linkOf (s : State) (l : Nat) : Link := s.fab.links.get l
/-- Replace a link. -/
def setLink (s : State) (l : Nat) (x : Link) : State := { s with fab := { s.fab with links := s.fab.links.set l x } }

/-- The flits of a packet (R399). -/
def flits (p : Packet) : Nat := (16 + p.body.length + 63) / 64

/-- Change the entry of a virtual channel. -/
def addTo (t : Table Nat) (v n : Nat) : Table Nat := t.set v (t.get v + n)

/-- A VC's limit of a table of limits: 1024 before the first announcement (R405). [log 8: DESIGN CHOICE] -/
def limitIn (t : Table Nat) (v : Nat) : Nat := if t.isEmpty then 1024 else t.get v

/-- What the limits and the held flits of a port use of its 8192 (R406). -/
def bufferUsed (x : Link) : Nat := (List.range 8).foldl (fun n v => n + max (limitIn x.announced v) (x.occ.get v)) 0

/-- The limits after an announcement (R406): lowered at once, raised as far as the buffer allows. -/
def newLimits (x : Link) : Table Nat :=
  let whole := (List.range 8).foldl (fun (t : Table Nat) v => t.set v (limitIn x.announced v)) []
  let low := (List.range 8).foldl (fun (t : Table Nat) v => t.set v (min (t.get v) (limitIn x.target v))) whole
  (List.range 8).foldl (fun (t : Table Nat) v =>
    let slack := 8192 - bufferUsed { x with announced := t }
    t.set v (max (t.get v) (min (limitIn x.target v) (max (t.get v) (x.occ.get v) + slack)))) low

/-- The 64 bytes of a control flit (R407): with new limits or without, the credits by virtual channel, and
the CRC-32 of words 0 to 6. -/
def controlFlit (epoch : BitVec 16) (limits : Option (List Nat)) (credits : List Nat) : List Byte :=
  let w0 := at_ 56 0xC1 ||| at_ 32 epoch.toNat ||| at_ 0 (bnat limits.isSome)
  let halves := fun (l : List Nat) => (List.range 8).flatMap fun v => toBytes 2 (l.getD v 0)
  let words := toBytes 8 w0.toNat ++ halves (limits.getD []) ++ halves credits ++ toBytes 16 0
  words ++ toBytes 4 (crc32 words).toNat ++ toBytes 4 0

/-- A 64-byte flit is a control flit with its CRC and with zeros in its reserved fields (R407). -/
def controlFlitOk (b : List Byte) : Bool :=
  let w0 := dword b 0
  decide (b.length = 64) && decide (field w0 56 8 = 0xC1) && decide (field w0 48 8 = 0) && decide (field w0 1 31 = 0)
    && decide (dword b 5 = 0) && decide (dword b 6 = 0) && decide (field (dword b 7) 32 32 = 0)
    && decide (field (dword b 7) 0 32 = (crc32 (b.take 56)).toNat)

/-- LIMITv, or CREDITv from the word after the limits on, of a control flit. -/
def controlField (b : List Byte) (first v : Nat) : Nat := ofBytes ((b.drop (8 * first + 2 * v)).take 2)

/-- A control flit of this receiver (R407): with new limits when one changed, or the credits owed. -/
def sendControl (x : Link) (announce : Bool) : Link :=
  let lims := newLimits x
  let changed := announce || (List.range 8).any fun v => decide (limitIn x.announced v ≠ lims.get v)
  if !changed && x.owed.isEmpty then x
  else
    let epoch := if changed then x.epoch + 1 else x.epoch
    let flit := controlFlit epoch (if changed then some ((List.range 8).map lims.get) else none) ((List.range 8).map x.owed.get)
    { x with announced := if changed then lims else x.announced, epoch := epoch, owed := [], flits := x.flits ++ [flit] }

/-- A packet that came in on a link leaves the port's buffer, and its credits return (R406). -/
def freeBuffer (s : State) (o : Origin) (p : Packet) : State :=
  match o with
  | .link l =>
    let x := linkOf s l
    let v := p.vc.toNat
    setLink s l (sendControl { x with occ := x.occ.set v (x.occ.get v - flits p), owed := addTo x.owed v (flits p) } false)
  | _ => s

/-- A request joins the queue of an output and merges there where R408 allows; a merged group merges again with what
else waits. `n` bounds the merges. -/
def joinQueue : Nat → State → Nat → Queued → State
  | 0, s, key, q => { s with fab := { s.fab with outputs := s.fab.outputs.set key (s.fab.outputs.get key ++ [q]) } }
  | n + 1, s, key, q =>
    match mergeInto s q (s.fab.outputs.get key) with
    | none => { s with fab := { s.fab with outputs := s.fab.outputs.set key (s.fab.outputs.get key ++ [q]) } }
    | some (l, m, e) =>
      let s := freeBuffer { s with fab := { s.fab with
          outputs := s.fab.outputs.set key l, wait := s.fab.wait ++ e.toList, nextEntry := s.fab.nextEntry + e.toList.length } } q.origin q.packet
      if (mergeInto s m (l.erase m)).isNone then s
      else joinQueue n { s with fab := { s.fab with outputs := s.fab.outputs.set key (l.erase m) } } key m

/-- Put a packet into the queue of an output; at a switch output it merges where R408 allows. -/
def enqueue (s : State) (out : Nat) (o : Origin) (p : Packet) (g : List AtomRequest) : State :=
  let key := out * 8 + p.vc.toNat
  let q : Queued := { packet := p, age := s.fab.age, group := g, ids := g.map (·.core), origin := o }
  joinQueue (if out ≤ 30 then (s.fab.outputs.get key).length + 1 else 0) { s with fab := { s.fab with age := s.fab.age + 1 } } key q

/-- Bytes 8 to 15 of the RAS record of a message or decrement that cannot be delivered (R353): the faulting
PC of a fault message, the target's global core id of any other. -/
def lostAddress (p : Packet) : Word :=
  if p.kind = 1 && bit (dword p.body 0) 55 then dword p.body 3 else word (p.ddev.toNat * 1024 + p.dport.toNat)

/-- FLOW of a packet that a core or the CFE sends (R423): the class whose MATCH is the handler of a
MSG packet of the partition; a PARK request has no handler. -/
def classify (s : State) (p : Packet) : BitVec 8 :=
  if p.kind = 1 && !bit (dword p.body 0) 62 then
    let h := BitVec.ofNat 48 (ofBytes (p.body.take 6))
    ((s.fab.classes.find? fun c => decide (c.1 = p.part) && decide (c.2.1 = h)).map (·.2.2)).getD 0
  else 0

/-! ## RAS records (R353, R438) -/

/-- A write of host memory by the device (R432). -/
def hostStore (addr : Nat) (b : List Byte) : HtlPacket :=
  { type := 8, part := 0, stat := 0, tid := 0, len := BitVec.ofNat 9 b.length, rsvd := false, addr := word addr, body := b }

/-- Record n of a ring in host memory, then the tail word n + 1 (R438). -/
def ringRecord (r : Ring) (body : List Byte) : List HtlPacket × Ring :=
  ([hostStore (r.addr.toNat + 32 * (r.count % (2 ^ (12 + r.slog) / 32))) body, hostStore r.tailw.toNat (toBytes 8 (r.count + 1))],
    { r with count := r.count + 1 })

/-- Write a RAS record of four words, into the ring when one is placed (R353, R438). -/
def rasWrite (s : State) (w : List Word) : State :=
  let s := { s with cfe := { s.cfe with ras := s.cfe.ras ++ [w] } }
  match s.cfe.rasRing with
  | some r =>
    let x := ringRecord r (w.flatMap fun v => toBytes 8 v.toNat)
    { s with cfe := { s.cfe with toHost := s.cfe.toHost ++ x.1, rasRing := some x.2 } }
  | none => s

/-- RAS record (R353): kind, unit, partition, id, address. -/
def rasRecord (s : State) (kind unit : Nat) (part : BitVec 6) (id : Nat) (addr : Word) : State :=
  rasWrite s [at_ 0 kind ||| at_ 8 unit ||| at_ 16 part.toNat ||| at_ 32 id, addr, s.cpu.time, 0]

/-- A packet that no path reaches (R398): a message or a decrement leaves a RAS record. -/
def unreached (s : State) (p : Packet) : State :=
  if 1 ≤ p.kind.toNat && decide (p.kind.toNat ≤ 3) then
    rasRecord s 7 7 p.part (p.sdev.toNat * 1024 + p.sport.toNat) (lostAddress p)
  else s

/-! ## The bodies of packets (R400) -/

/-- The 64 bytes of a message (R4, R138). -/
def messageBytes (m : Message) : List Byte :=
  toBytes 8 m.hdr0.toNat ++ toBytes 8 m.hdr1.toNat ++ toBytes 8 m.body.p0.toNat ++ toBytes 8 m.body.p1.toNat
    ++ toBytes 8 m.body.p2.toNat ++ toBytes 8 m.body.p3.toNat ++ toBytes 8 m.body.p4.toNat ++ toBytes 8 m.body.p5.toNat

/-- A message from its 64 bytes. -/
def messageOf (b : List Byte) : Message where
  hdr0 := dword b 0
  hdr1 := dword b 1
  body := { p0 := dword b 2, p1 := dword b 3, p2 := dword b 4, p3 := dword b 5, p4 := dword b 6, p5 := dword b 7 }

/-- A number of `n` bytes within a body. -/
def bodyField (b : List Byte) (i n : Nat) : Nat := ofBytes ((b.drop i).take n)

/-- The body of a NOTICE: the requester, its words, whether a STREL asks, and whether the home marks a copy
with it (R232). [log 50: DESIGN CHOICE] -/
def noticeBytes (q : GrantRequest) : List Byte :=
  toBytes 3 q.core.toNat ++ toBytes 2 q.words.toNat ++ toBytes 1 (bnat q.release + 2 * bnat q.mark)

/-- The request that a NOTICE carries. -/
def noticeOf (b : List Byte) : GrantRequest :=
  { core := BitVec.ofNat 18 (bodyField b 0 3), words := BitVec.ofNat 16 (bodyField b 3 2), release := decide (bodyField b 5 1 % 2 = 1),
    mark := decide (bodyField b 5 1 / 2 % 2 = 1) }

/-- The body of a GRANT: granted words, a refusal with its word and holder, or a request that waits. [log 50: DESIGN CHOICE] -/
def grantBytes (a : GrantAnswer) : List Byte :=
  match a with
  | .granted w => toBytes 1 0 ++ toBytes 2 w.toNat ++ toBytes 3 0
  | .refused w h => toBytes 1 1 ++ toBytes 2 w.toNat ++ toBytes 3 h.toNat
  | .waits => toBytes 1 2 ++ toBytes 5 0

/-- The answer that a GRANT carries. -/
def grantOfBytes (b : List Byte) : GrantAnswer :=
  match bodyField b 0 1 with
  | 0 => .granted (BitVec.ofNat 16 (bodyField b 1 2))
  | 1 => .refused (BitVec.ofNat 4 (bodyField b 1 2)) (BitVec.ofNat 18 (bodyField b 3 3))
  | _ => .waits

/-- The code of a WB's kind. -/
def wbCode (k : WriteBackKind) : Nat :=
  match k with
  | .writeBack => 0
  | .publication => 1
  | .eviction => 2
  | .engine => 3

/-- The body of a WB: its 8-byte mask, which holds the words in [15:0], the kind, the core, LOGGED and the
poisoned words, then the words (R223, R400). [log 50: DESIGN CHOICE] -/
def wbBytes (k : WriteBackKind) (core : BitVec 18) (logged : Bool) (words poison : BitVec 16) (get : Nat → Byte) : List Byte :=
  toBytes 8 (words.toNat + 2 ^ 16 * wbCode k + 2 ^ 18 * core.toNat + 2 ^ 36 * bnat logged + 2 ^ 48 * poison.toNat)
    ++ (bitsOf words).flatMap fun w => (List.range 8).map fun i => get (8 * w + i)

/-- The write-back that a WB packet carries. -/
def wbOf (p : Packet) : WriteBack :=
  let m := bodyField p.body 0 8
  let words := BitVec.ofNat 16 m
  { kind := [.writeBack, .publication, .eviction, .engine].getD (m / 2 ^ 16 % 4) .writeBack,
    core := BitVec.ofNat 18 (m / 2 ^ 18), sharer := .peer (BitVec.ofNat 10 (p.sdev.toNat * 4 + field p.sport 8 2)),
    words := words, data := (List.range (bitsOf words).length).map fun i => dword p.body (1 + i), logged := decide (m / 2 ^ 36 % 2 = 1),
    poison := BitVec.ofNat 16 (m / 2 ^ 48), part := p.part, key := p.key }

/-- The body of a CTRL packet. [log 50: DESIGN CHOICE] -/
def controlBytes (c : Control) : List Byte :=
  match c with
  | .time t => toBytes 8 0 ++ toBytes 8 t.toNat ++ toBytes 8 0
  | .switchError w0 w1 => toBytes 8 1 ++ toBytes 8 w0.toNat ++ toBytes 8 w1.toNat
  | .sliceAgreement part t => toBytes 8 2 ++ toBytes 8 part.toNat ++ toBytes 8 t.toNat

/-- What a CTRL packet carries. -/
def controlOf (b : List Byte) : Control :=
  match bodyField b 0 8 with
  | 0 => .time (dword b 1)
  | 1 => .switchError (dword b 1) (dword b 2)
  | _ => .sliceAgreement (BitVec.ofNat 6 (bodyField b 8 8)) (dword b 2)

/-! ## Delivery within the device (R393, R395) -/

/-- The outstanding atomic of the core that a reply answers: the oldest of its address at that device
(R240, R242). -/
def awaitedAtomic (s : State) (p : Packet) : Option Nat :=
  (s.cpu.inFlight.find? fun a => decide (a.dev = p.sdev) && decide (a.pa = p.pa)).map (·.id)

/-- What a packet that comes out at a port of this device brings about there: at this core, at the L2
slices of the device, whose home lines stand in the state, and at the peer-copy slices of this core's die;
none for a part that is not in the model. [log 51: DESIGN CHOICE] -/
def actOf (s : State) (p : Packet) : Option Act :=
  let mine := decide (p.dport = corePort s.cpu.coreId)
  let slice := decide (field p.dport 6 2 = 3)
  let near := slice && decide (field p.dport 8 2 = idDie s.cpu.coreId)
  let l := BitVec.ofNat 37 (p.pa.toNat / 128)
  let here : LineId := { dev := p.ddev, line := l }
  let there : LineId := { dev := p.sdev, line := l }
  let holder : Sharer := .peer (BitVec.ofNat 10 (p.sdev.toNat * 4 + field p.sport 8 2))
  let ifs := fun (b : Bool) (a : Act) => if b then some a else none
  match p.kind.toNat with
  | 0x01 =>
    let h := dword p.body 0
    if bit h 62 then ifs mine (.park { op := BitVec.ofNat 2 (field h 2 2), how := BitVec.ofNat 2 (field h 0 2), part := p.part })
    else ifs mine (.message (messageOf p.body) p.spawn p.part)
  | 0x02 => ifs mine (.decrement { part := p.part, n := BitVec.ofNat 12 (bodyField p.body 2 2), status := BitVec.ofNat 16 (bodyField p.body 0 2) })
  | 0x03 => ifs mine (.arrival (.mdec { line := there, word := BitVec.ofNat 4 (bodyField p.body 4 1), n := BitVec.ofNat 12 (bodyField p.body 0 2), part := p.part } (BitVec.ofNat 16 (bodyField p.body 2 2))))
  | 0x04 => ifs slice (.arrival (.fill here { holder := holder, key := p.key, part := p.part }))
  | 0x05 =>
    let q := { noticeOf p.body with part := p.part }
    if q.mark then ifs near (.arrival (.notice there q)) else ifs slice (.arrival (.notice here q))
  | 0x06 => ifs slice (.arrival (.atom (packetRequest p)))
  | 0x07 => ifs slice (.arrival (.catom [packetRequest p]))
  | 0x08 => ifs slice (.arrival (.wb here (wbOf p)))
  | 0x09 => ifs near (.arrival (.inv there p.part))
  | 0x0A => ifs near (.arrival (.data there { bytes := p.body, poison := p.poison, marks := p.marks }))
  | 0x0B => ifs mine (.arrival (.grant there (grantOfBytes p.body)))
  | 0x0C => ifs slice (.arrival (.ack (if s.cpu.acks.any fun a => decide (a.line = here) && decide (a.src = holder) then here else there) holder))
  | 0x0D => if mine then (awaitedAtomic s p).map fun id => .arrival (.atomr { id := id, old := BitVec.ofNat 128 (ofBytes p.body), poisoned := decide (p.poison ≠ 0) }) else none
  | 0x0E => ifs mine (.arrival (.slab p))
  | 0x0F => some (.arrival (.ctrl (controlOf p.body)))
  | _ => none

/-- A packet comes out at its port: what it brings about acts next; one for a part that is not in the model
has been delivered. [log 51: DESIGN CHOICE] -/
def deliver (s : State) (p : Packet) : State :=
  match actOf s p with
  | some a => { s with own := { s.own with agenda := s.own.agenda ++ [a] } }
  | none => { s with fab := { s.fab with delivered := s.fab.delivered ++ [p] } }

/-- The output of the crossbar that leads to a port of this device: 32 to 35 the dies, 36 the CFE. -/
def portOutput (port : BitVec 10) : Nat := if port = cfePort then 36 else 32 + field port 8 2

/-- A packet of this device (R393, R395): within a die it goes by the mesh, between dies and to the CFE
through the F-die crossbar, and for another device, or with a flow class, through the crossbar to the
switch, which discards one for a device outside the domain (R400). One that no path reaches is dropped, a message or
a decrement with a RAS record (R398). -/
def inject (s : State) (p : Packet) (g : List AtomRequest) : State :=
  if p.ddev.toNat = ownDev s && decide (p.flow = 0) && p.tags.isEmpty then
    if p.dport ≠ cfePort && decide (p.sport ≠ cfePort) && decide (field p.dport 8 2 = field p.sport 8 2) then deliver s p
    else enqueue s (portOutput p.dport) .own p g
  else if reachable s p.ddev.toNat || !(inDomain s p.ddev.toNat) then enqueue s 37 .own p g
  else unreached s p

/-- A message or decrement of a core, an engine or the CFE: its flow class is looked up (R423), and one for
another device is counted (R384). -/
def sendPacket (s : State) (p : Packet) (g : List AtomRequest) : State :=
  let p := { p with flow := if p.flow = 0 then classify s p else p.flow }
  inject (if p.kind = 1 && decide (p.ddev.toNat ≠ ownDev s) && reachable s p.ddev.toNat then countEvent s 0xC 1 else s) p g

/-- A packet that the switch itself sends, or that a kernel sends on (R418, R419, R426): it waits at its output, and is
not classified again (R423). -/
def switchSends (s : State) (o : Origin) (p : Packet) : State :=
  match outputFor s (ownDev s) p.ddev.toNat with
  | some out => enqueue s out o p []
  | none => freeBuffer (unreached s p) o p

/-- A packet of a die's L2 slice about a line, to a slice or a core of a device, for a requester of a partition
(R211, R399, R400). -/
def slicePacket (s : State) (die : Nat) (line : BitVec 37) (dev : Nat) (dport : BitVec 10) (part : BitVec 6) (kind vc : Nat) (body : List Byte) : Packet :=
  { ddev := BitVec.ofNat 8 dev, dport := dport, sport := slicePortOn die line, part := part,
    vc := BitVec.ofNat 3 vc, kind := BitVec.ofNat 5 kind, sdev := BitVec.ofNat 8 (ownDev s), flow := 0,
    pa := BitVec.ofNat 44 (line.toNat * 128), body := body }

/-- A packet of the die's peer-copy slice for the home slice of a line (R211, R411). -/
def linePacket (s : State) (ln : LineId) (part : BitVec 6) (kind vc : Nat) (body : List Byte) : Packet :=
  slicePacket s (idDie s.cpu.coreId) ln.line ln.dev.toNat (slicePort ln.line) part kind vc body

/-- A packet of this core for the home slice of a line: a request whose answer comes to the core itself. -/
def corePacket (s : State) (ln : LineId) (kind vc : Nat) (body : List Byte) : Packet :=
  { linePacket s ln (partOf s) kind vc body with sport := corePort s.cpu.coreId }

/-- A packet of the home slice of a line of this device to the slice of another die that holds a copy
(R210, R411). -/
def homePacket (s : State) (line : BitVec 37) (die : BitVec 10) (part : BitVec 6) (kind vc : Nat) (body : List Byte) : Packet :=
  slicePacket s (homeDie line) line (die.toNat / 4) (slicePortOn die.toNat line) part kind vc body

end Sys2Proof.Machine
end

