-- ==== Sys2Proof/Machine/Memory.lean ====
section
/-! DEFINITION. Memory: local memories, the home values of this device, the copies that the core and
its die hold, the directory, publication, and translation (R200 to R246). -/

namespace Sys2Proof.Machine

/-- The outcome of an access of the running processor: it is performed, it raises a cause with the
value for TRAPVAL, or it has not begun and waits (R13, R236). In a trap only registers that the
cause writes, free draws and cached translations differ from the state before. -/
inductive Acc (α : Type) where
  | ok (s : State) (a : α)
  | trap (s : State) (cause : BitVec 8) (val : Word)
  | stall (s : State)

/-- Go on with the result of an access. -/
def Acc.bind {α β : Type} (x : Acc α) (f : State → α → Acc β) : Acc β :=
  match x with
  | .ok s a => f s a
  | .trap s c v => .trap s c v
  | .stall s => .stall s

/-- Change the result of an access. -/
def Acc.map {α β : Type} (x : Acc α) (f : α → β) : Acc β :=
  match x with
  | .ok s a => .ok s (f a)
  | .trap s c v => .trap s c v
  | .stall s => .stall s

/-! The codes of TRAPCAUSE (R347). -/

/-- ILLEGAL. -/
def causeIllegal : BitVec 8 := 0x01
/-- PRIV. -/
def causePriv : BitVec 8 := 0x02
/-- UNDECL. -/
def causeUndecl : BitVec 8 := 0x03
/-- WINDOW. -/
def causeWindow : BitVec 8 := 0x04
/-- RSVD. -/
def causeRsvd : BitVec 8 := 0x05
/-- FETCH. -/
def causeFetch : BitVec 8 := 0x06
/-- MISALIGN. -/
def causeMisalign : BitVec 8 := 0x07
/-- ADDR. -/
def causeAddr : BitVec 8 := 0x08
/-- ACCESS. -/
def causeAccess : BitVec 8 := 0x09
/-- ALIGNATTR. -/
def causeAlignattr : BitVec 8 := 0x0A
/-- XLATE. -/
def causeXlate : BitVec 8 := 0x0B
/-- PERM. -/
def causePerm : BitVec 8 := 0x0C
/-- RACE. -/
def causeRace : BitVec 8 := 0x0D
/-- POISON. -/
def causePoison : BitVec 8 := 0x0E
/-- SCOPE. -/
def causeScope : BitVec 8 := 0x0F
/-- SVC. -/
def causeSvc : BitVec 8 := 0x10
/-- BRK. -/
def causeBrk : BitVec 8 := 0x11
/-- MSGADDR. -/
def causeMsgaddr : BitVec 8 := 0x12
/-- MSGFMT. -/
def causeMsgfmt : BitVec 8 := 0x13
/-- TARGET. -/
def causeTarget : BitVec 8 := 0x14
/-- CLAIMERR. -/
def causeClaimerr : BitVec 8 := 0x15
/-- DCERR. -/
def causeDcerr : BitVec 8 := 0x16
/-- BARERR. -/
def causeBarerr : BitVec 8 := 0x17
/-- SHAPE. -/
def causeShape : BitVec 8 := 0x18
/-- CPYADDR. -/
def causeCpyaddr : BitVec 8 := 0x19
/-- GRIDERR. -/
def causeGriderr : BitVec 8 := 0x1A
/-- STALE. -/
def causeStale : BitVec 8 := 0x1B
/-- MFETCH. -/
def causeMfetch : BitVec 8 := 0x1C
/-- PARTERR. -/
def causeParterr : BitVec 8 := 0x1D
/-- BADHDR. -/
def causeBadhdr : BitVec 8 := 0x20
/-- PARKED. -/
def causeParked : BitVec 8 := 0x21
/-- WATCHDOG. -/
def causeWatchdog : BitVec 8 := 0x22
/-- NESTED. -/
def causeNested : BitVec 8 := 0x23

/-- reason :: operand of R160. -/
def reasoned (reason : Nat) (operand : Word) : Word := at_ 56 reason ||| (operand &&& at_ 0 (2 ^ 56 - 1))

/-! ## Local memory -/

/-- The key of an address of local memory, by either name of R24. -/
def localKey (s : State) (a : Nat) : Nat :=
  if a < 0x100000 then coreIndex s.cpu.coreId * 0x100000 + a else a - 0x100000

/-- The key of an address of the core's own local memory. -/
def ownKey (s : State) (a : Nat) : Nat := coreIndex s.cpu.coreId * 0x100000 + a

/-- The region of R88: 0 own, 1 to 4 the cluster window, 5 global, 6 the hole of R23. -/
def region (a : Nat) : Nat :=
  if a < 0x100000 then 0 else if a < 0x500000 then a / 0x100000 else if a < 0x100000000 then 6 else 5

/-- STASHCFG[7:0] of a core of the cluster (R203, R206). -/
def stashcfgOf (s : State) (c : Nat) : Nat :=
  if c = coreIndex s.cpu.coreId then field s.cpu.stashcfg 0 8 else (s.mem.stashcfgs.get c).toNat

/-- The stash region of a core's local memory: first and last key plus one (R203, R205). -/
def stashSpanOf (s : State) (c : Nat) : Nat × Nat :=
  let b := c * 0x100000 + stashcfgOf s c / 16 * 0x10000
  (b, b + stashcfgOf s c % 16 * 0x10000)

/-- The stash region of this core. -/
def stashSpan (s : State) : Nat × Nat := stashSpanOf s (coreIndex s.cpu.coreId)

/-- The stash is present (R203). -/
def hasStash (s : State) : Bool := decide (field s.cpu.stashcfg 0 4 ≠ 0)

/-- A run of local keys overlaps a stash region of the cluster (R206). -/
def inStash (s : State) (key n : Nat) : Bool :=
  (List.range 4).any fun c =>
    decide (stashcfgOf s c % 16 ≠ 0) && decide (key < (stashSpanOf s c).2) && decide ((stashSpanOf s c).1 < key + n)

/-- A store to this local key is forbidden by R26 in the mode. -/
def windowForbids (user : Bool) (key : Nat) : Bool :=
  let off := key % 0x100000
  decide (off < 0x800) && (user || decide (0x600 ≤ off))

/-- The free value of a byte that lies in a run of unknown content (R205): of a stash region that stands there,
another at each step. [log 19: DESIGN CHOICE] -/
def unknownByte (s : State) (key : Nat) : Option Byte :=
  (s.mem.unknown.find? fun u => decide (u.first ≤ key) && decide (key < u.last)).map fun u =>
    if u.live then Config.stashDataByte s.own.tick key else Config.stashByte u.draw key

/-- A byte of local memory. [log 6: DESIGN CHOICE; 19: DESIGN CHOICE] -/
def getLocal (s : State) (key : Nat) : Byte := (unknownByte s key).getD (s.mem.lmem.get key)

/-- The runs of unknown content without the bytes from a key up, which a write makes known. -/
def known (l : List Unknown) (key n : Nat) : List Unknown :=
  if n = 0 then l
  else l.flatMap fun u =>
    if key + n ≤ u.first || decide (u.last ≤ key) then [u]
    else (if u.first < key then [{ u with last := key }] else []) ++ (if key + n < u.last then [{ u with first := key + n }] else [])

/-- A run of local memory becomes unknown: the stash's lines have stood there, or, `live`, stand there from now on
(R205). The poison of its granules is left as it was. [log 19: DESIGN CHOICE] -/
def forget (s : State) (first last : Nat) (live : Bool) : State :=
  if last ≤ first then s
  else
    { s with
      mem := { s.mem with
        lmem := s.mem.lmem.filter fun x => !(decide (first ≤ x.1) && decide (x.1 < last)),
        unknown := known s.mem.unknown first (last - first) ++ [{ first := first, last := last, draw := s.own.draws, live := live }] }
      own := { s.own with draws := s.own.draws + 1 } }

/-- Bytes of local memory from a key up. -/
def getLocals (s : State) (key n : Nat) : List Byte := (List.range n).map fun i => getLocal s (key + i)

/-- The bytes of one list written into a table from a key up. -/
def putBytes (t : Table Byte) (key : Nat) : List Byte → Table Byte
  | [] => t
  | b :: bs => putBytes (t.set key b) (key + 1) bs

/-- A store of all eight bytes of a granule clears its poison (R223). -/
def clearPoison (t : Table Bool) (key n : Nat) : Table Bool :=
  (List.range (n / 8 + 1)).foldl (fun t i =>
    let g := (key + 7) / 8 + i
    if 8 * g + 8 ≤ key + n then t.set g false else t) t

/-- The halfwords that a run of bytes touches, with their bytes before it. [log 13: DEDUCED] -/
def oldHalves (get : Nat → Byte) (key n : Nat) : List (Nat × BitVec 16) :=
  (List.range ((key % 2 + n + 1) / 2)).map fun i =>
    let h := key / 2 * 2 + 2 * i
    (h, BitVec.ofNat 16 ((get h).toNat + 256 * (get (h + 1)).toNat))

/-- Write bytes of local memory: no publication and no race (R227). -/
def putLocal (s : State) (key : Nat) (bs : List Byte) : State :=
  { s with
    mem := { s.mem with
      lmem := putBytes s.mem.lmem key bs, lpoison := clearPoison s.mem.lpoison key bs.length, unknown := known s.mem.unknown key bs.length,
      shadows := s.mem.shadows.filter fun x => !(decide (key ≤ x.key) && decide (x.key < key + bs.length)) }
    cpu := { s.cpu with stale := oldHalves (getLocal s) key bs.length ++ s.cpu.stale } }

/-- A byte of local memory as a load of the core sees it (R227): while engine operations that write it run, the
old or the new value of its granule, by a free choice. [log 26: DESIGN CHOICE] -/
def seenLocal (s : State) (key : Nat) : Byte :=
  if s.mem.shadows.isEmpty then getLocal s key
  else
    let ops := ((s.mem.shadows.filter fun x => decide (x.key / 8 = key / 8)).map (·.op)).eraseDups
    let i := pick (Config.seenGranule s.own.tick (key / 8)) (ops.length + 1)
    match ops[i]? with
    | some op => ((s.mem.shadows.find? fun x => decide (x.op = op) && decide (x.key = key)).map (·.val)).getD (getLocal s key)
    | none => getLocal s key

/-- Bytes of local memory from a key up, as a load sees them. -/
def seenLocals (s : State) (key n : Nat) : List Byte := (List.range n).map fun i => seenLocal s (key + i)

/-- A granule of local memory under a run of bytes is poisoned. -/
def localPoison (s : State) (key n : Nat) : Bool :=
  (List.range n).any fun i => s.mem.lpoison.get ((key + i) / 8)

/-- A run of local memory in which poisoned bytes read as zero: the reserved fields of a block are judged in its clean
words (R59, R319). -/
def cleanBytes (s : State) (key n : Nat) : List Byte := (List.range n).map fun i => if localPoison s (key + i) 1 then 0 else getLocal s (key + i)

/-- A doubleword of the core's own local memory. -/
def ownDword (s : State) (a : Nat) : Word := wordOf (getLocals s (ownKey s a) 8)

/-- Write a doubleword of the core's own local memory. -/
def putOwnDword (s : State) (a : Nat) (v : Word) : State := putLocal s (ownKey s a) (toBytes 8 v.toNat)

/-- Entry j of the constant window (R26). -/
def constant (s : State) (j : Nat) : Word := ownDword s (8 * j)

/-! ## Home values -/

/-- A populated physical address (R207). -/
def populated (pa : Nat) : Bool :=
  (decide (pa < 2 ^ 39) && decide (pa % 2 ^ 37 < 128000000000))
    || (decide (2 ^ 41 ≤ pa) && decide (pa < 2 ^ 41 + 1500000000000))

/-- The raw 16-byte block at a physical address. -/
def rawBlock (s : State) (pa : Nat) : BitVec 128 :=
  BitVec.ofNat 128 (ofBytes ((List.range 16).map fun i => s.mem.pmem.get (pa / 16 * 16 + i)))

/-- A byte of home memory under a key id (R212). [log 6: DESIGN CHOICE; 16: DESIGN CHOICE] -/
def homeByte (s : State) (key : BitVec 6) (pa : Nat) : Byte :=
  let k := s.mem.pkey.get (pa / 128)
  if k = key then s.mem.pmem.get pa
  else BitVec.ofNat 8 (field (Config.decrypted k key (pa / 16 * 16) (rawBlock s pa)) (8 * (pa % 16)) 8)

/-- A granule of home memory is poisoned; an unpopulated address reads poisoned (R207, R223). -/
def homePoisoned (s : State) (pa : Nat) : Bool := s.mem.ppoison.get (pa / 8) || !populated pa

/-- Bytes of home memory. -/
def homeBytes (s : State) (key : BitVec 6) (pa n : Nat) : List Byte :=
  (List.range n).map fun i => homeByte s key (pa + i)

/-- A doubleword of home memory. -/
def homeDword (s : State) (key : BitVec 6) (pa : Nat) : Word := wordOf (homeBytes s key pa 8)

/-- A poisoned granule lies under a run of home bytes. -/
def homePoison (s : State) (pa n : Nat) : Bool := (List.range n).any fun i => homePoisoned s (pa + i)

/-- The line takes a key id: its other content becomes what the controller decrypts (R212). [log 16: DESIGN CHOICE] -/
def rekey (s : State) (key : BitVec 6) (line : Nat) : State :=
  if s.mem.pkey.get line = key then s
  else
    { s with mem := { s.mem with
        pmem := putBytes s.mem.pmem (128 * line) (homeBytes s key (128 * line) 128),
        pkey := s.mem.pkey.set line key } }

/-- The valid table entries among the doublewords of a run of home bytes that a write changes: `t` is the state
after it (R221). [log 15: DEDUCED] -/
def noteEntries (s t : State) (pa n : Nat) : State :=
  let olds := (List.range ((pa % 8 + n + 7) / 8)).filterMap fun i =>
    let a := (pa / 8 + i) * 8
    let w := homeDword s 0 a
    if bit w 0 && decide (homeDword t 0 a ≠ w) then some { tick := s.own.tick, pa := a, word := w : OldEntry } else none
  { t with mem := { t.mem with oldEntries := t.mem.oldEntries ++ olds } }

/-- The key of a global halfword in the fetch view (R37): its home device and physical address. -/
def codeKey (dev pa : Nat) : Nat := 2 ^ 60 + dev * 2 ^ 44 + pa

/-- Write home memory under a key; a write to an unpopulated address is discarded (R207). The bytes lie in
one line. A fetch of the core may see what stood there before (R37). -/
def putHome (s : State) (key : BitVec 6) (pa : Nat) (bs : List Byte) : State :=
  if bs.isEmpty || !populated pa then s
  else
    let s := rekey s key (pa / 128)
    let olds := (oldHalves (fun p => s.mem.pmem.get p) pa bs.length).map fun o => (codeKey (ownDev s) o.1, o.2)
    noteEntries s { s with
      mem := { s.mem with pmem := putBytes s.mem.pmem pa bs, ppoison := clearPoison s.mem.ppoison pa bs.length }
      cpu := { s.cpu with stale := olds ++ s.cpu.stale } } pa bs.length

/-- The RAS record of a write to an unpopulated address (R207, R353): the partition, and the core that
wrote or the slice that the write reached. -/
def recordDiscarded (s : State) (part : BitVec 6) (id pa : Nat) : State :=
  if populated pa then s else rasRecord s 5 4 part id (word pa)

/-- The number of the home slice of an address on its device, by which a RAS record names it (R353). -/
def sliceNumber (line : BitVec 37) : Nat := homeDie line * 64 + homeSlice line

/-- The words of a line whose eight bytes are all among bytes given by offset. -/
def wholeIn (bs : List (Nat × Byte)) : BitVec 16 :=
  maskOf 16 ((List.range 16).filter fun w => (List.range 8).all fun i => bs.any fun b => decide (b.1 = 8 * w + i))

/-- The words of a line that bytes given by offset lie in. -/
def wordsIn (bs : List (Nat × Byte)) : BitVec 16 := maskOf 16 (bs.map fun b => b.1 / 8)

/-- Merge bytes of the core's own stores into a home line: the core's view of them does not change, so a
fetch sees nothing new (R99). The words of `whole`, which one store wrote whole, lose their poison (R223). -/
def mergeHome (s : State) (key : BitVec 6) (line : Nat) (bs : List (Nat × Byte)) (whole : BitVec 16) : State :=
  if bs.isEmpty || !populated (128 * line) then s
  else
    let s := rekey s key line
    noteEntries s { s with mem := { s.mem with
        pmem := bs.reverse.foldl (fun (t : Table Byte) b => t.set (128 * line + b.1) b.2) s.mem.pmem,
        ppoison := (bitsOf whole).foldl (fun (t : Table Bool) w => t.set (16 * line + w) false) s.mem.ppoison } } (128 * line) 128

/-- Mark granules of home memory poisoned. -/
def poisonHome (s : State) (pa n : Nat) : State :=
  let put := fun (t : Table Bool) i => t.set ((pa + i) / 8) true
  { s with mem := { s.mem with ppoison := (List.range n).foldl put s.mem.ppoison } }

/-- Mark granules of local memory poisoned. -/
def poisonLocal (s : State) (key n : Nat) : State :=
  let put := fun (t : Table Bool) i => t.set ((key + i) / 8) true
  { s with mem := { s.mem with lpoison := (List.range n).foldl put s.mem.lpoison } }

/-! ## The directory and watchpoints -/

/-- The directory entry of a home line (R210). The 40-bit cluster vector, the die bits and the pointers are
held as the list of holders that they name: a stash by its core, a die by device :: die. [log 77: DESIGN CHOICE] -/
def dirOf (s : State) (line : BitVec 37) : DirEntry := s.mem.dir.get line.toNat

/-- Replace a directory entry. -/
def setDir (s : State) (line : BitVec 37) (d : DirEntry) : State :=
  { s with mem := { s.mem with dir := s.mem.dir.set line.toNat d } }

/-- The pointers of an entry to copies on other devices (R210). -/
def pointers (s : State) (d : DirEntry) : Nat :=
  (d.sharers.filter fun h => match h with
    | .stash _ => false
    | .peer x => decide (x.toNat / 4 ≠ ownDev s)).length

/-- A holder as the directory names it: a stash of another die stands behind that die's peer copy (R211). -/
def asHolder (s : State) (line : BitVec 37) (h : Sharer) : Sharer :=
  match h with
  | .stash c => if idDev c = ownDev s && decide (idDie c = homeDie line) then h else .peer (BitVec.ofNat 10 (idDev c * 4 + idDie c))
  | .peer _ => h

/-- Record a holder of a copy (R210): a fifth pointer to another device sets the overflow bit instead. -/
def addSharer (s : State) (line : BitVec 37) (h : Sharer) : State :=
  let d := dirOf s line
  let h := asHolder s line h
  let far := match h with
    | .stash _ => false
    | .peer x => decide (x.toNat / 4 ≠ ownDev s)
  if h ∈ d.sharers then s
  else if far && decide (4 ≤ pointers s d) then setDir s line { d with overflow := true }
  else setDir s line { d with sharers := d.sharers ++ [h] }

/-- The line of a home address of this device. -/
def homeLine (s : State) (line : BitVec 37) : LineId := { dev := BitVec.ofNat 8 (ownDev s), line := line }

/-- Two lines are the same. -/
def sameLine (a b : LineId) : Bool := decide (a.dev.toNat = b.dev.toNat) && decide (a.line.toNat = b.line.toNat)

/-- A line that the core's die holds for a use. -/
def heldLine (s : State) (ln : LineId) (u : LineUse) : Option PeerLine :=
  s.mem.peers.find? fun l => sameLine l.line ln && decide (l.use = u)

/-- The peer copy of the core's die. -/
def peerLine (s : State) (ln : LineId) : Option PeerLine := heldLine s ln .copy

/-- This core as a holder of stash lines (R210). -/
def ownStash (s : State) : Sharer := .stash s.cpu.coreId

/-- The stashes of other cores that hold a line behind the peer copy of the core's die (R211). -/
def dieStashes (s : State) (ln : LineId) : List Sharer :=
  (((peerLine s ln).map (·.sharers)).getD []).filter fun h => decide (h ≠ ownStash s)

/-- The devices that rectangles of a partition name (R357). -/
def rectDevices (rects : List Word) : List Nat := rects.filterMap fun r => if bit r 63 then some (field r 24 8) else none

/-- The devices on which the partition that owns a home line holds cores (R210, R357, R358): of a line in a SHARED
region, those of every partition. -/
def partitionDevices (s : State) (line : BitVec 37) : List Nat :=
  let owner := s.cfe.owners.get (line.toNat / 2 ^ 22)
  let mine := fun (p : BitVec 6) => owner.isNone || decide (owner = some p)
  let own := if mine (partOf s) then rectDevices ((List.range 8).map s.cpu.prect.get) else []
  (own ++ (s.cfe.partitions.filter fun p => mine p.id).flatMap fun p => rectDevices p.prect).eraseDups

/-- Every holder that an invalidation or a mark of a home line goes to (R210): with the overflow bit, every die of
every device of the partition; behind the peer copy of the core's die the stashes that it serves (R211). -/
def holdersOf (s : State) (line : BitVec 37) : List Sharer :=
  let d := dirOf s line
  let all := (partitionDevices s line).flatMap fun dev => (List.range 4).map fun i => BitVec.ofNat 10 (dev * 4 + i)
  d.sharers ++ dieStashes s (homeLine s line) ++ (if d.overflow then
    (all.filter fun x => decide (x.toNat ≠ ownDev s * 4 + homeDie line) && !(d.sharers.contains (.peer x))).map Sharer.peer
  else [])

/-- The words of the line that the core's own slot holds (R210). -/
def grantOf (s : State) (ln : LineId) : Grant :=
  (s.mem.grants.find? fun g => sameLine g.line ln).getD { line := ln, words := 0, release := 0, written := 0, logged := false }

/-- Replace the core's own grant of a line; an empty one is dropped. -/
def setGrant (s : State) (g : Grant) : State :=
  let rest := s.mem.grants.filter fun h => decide (h.line ≠ g.line)
  { s with mem := { s.mem with grants := if g.words = 0 then rest else rest ++ [g] } }

/-- The enabled comparators that watch a home line (R378, R379). -/
def watchers (s : State) (line : BitVec 37) : List Comparator :=
  s.cfe.comparators.filter fun c =>
    bit c.wcfg 24 && decide (field c.waddr 7 37 = line.toNat)

/-- The router of an L2 slice on its die's 8 × 5 mesh, column and row (R209). -/
def sliceRouter (slice : Nat) : Nat × Nat := (slice % 8, slice / 8 % 5)

/-- The router of a core's cluster (R209). -/
def clusterRouter (core : BitVec 18) : Nat × Nat := (idX core / 2, idY core / 2)

/-- The ports of a slice's router by which a shortest path from a core's cluster can end: north, east,
south and west are 0 to 3, and rows count southward; any of them at the slice's own router. [log 74: DESIGN CHOICE] -/
def meshPorts (core : BitVec 18) (slice : Nat) : List Nat :=
  let c := clusterRouter core
  let r := sliceRouter slice
  let ps := (if c.1 < r.1 then [3] else if r.1 < c.1 then [1] else []) ++ (if c.2 < r.2 then [0] else if r.2 < c.2 then [2] else [])
  if ps.isEmpty then [0, 1, 2, 3] else ps

/-- The source port of a report about a core's access (R209, R380): a mesh port of its own die, the F-die, or
the link by which the fixed route from its device ends. [log 74: DESIGN CHOICE] -/
def sourcePort (s : State) (line : BitVec 37) (core : BitVec 18) : Nat :=
  let src := idDev core
  let own := ownDev s
  if src = own then
    if idDie core = homeDie line then
      let ps := meshPorts core (homeSlice line)
      ps.getD (pick (Config.meshPort core (homeSlice line)) ps.length) 0
    else 4
  else
    let last := if src / 16 = own / 16 || decide (src % 16 = own % 16) then src else 16 * (src / 16) + own % 16
    match linkTo own last with
    | some l => 16 + l
    | none => 4

/-- The requester class of a core's access at a slice of this device (R380): an access from another device
comes through the fabric. [log 74: DESIGN CHOICE] -/
def sourceClass (s : State) (core : BitVec 18) (cls : Nat) : Nat := if idDev core = ownDev s then cls else 7

/-- The core publishes through this line as uncached while a comparator watches it (R379). -/
def isWatched (s : State) (line : BitVec 37) : Bool := !(watchers s line).isEmpty

/-- The 32-byte report of a match (R380), and the trigger of XT, which goes to the partition's other clusters
and reaches this one (R373). `access`: 1 read, 2 write, 3 atomic; `cls` the class of R380; `port` the source
port. -/
def watchMatch (s : State) (line : BitVec 37) (cls port access : Nat) (part : BitVec 6) (words : BitVec 16) : State :=
  (watchers s line).foldl (fun s c =>
    let first := field c.waddr 3 4
    let hit := (bitsOf words).find? fun w => decide (first ≤ w) && decide (w ≤ first + field c.wcfg 0 4)
    let kind := bit c.wcfg (if access = 1 then 6 else if access = 2 then 7 else 8)
    match hit with
    | some w =>
      if kind && bit c.wcfg (9 + cls) && decide (field c.wcfg 17 6 = part.toNat) then
        let w0 := at_ 0 (c.slice.toNat * 8 + c.comp.toNat) ||| at_ 8 cls ||| at_ 16 port ||| at_ 24 access ||| at_ 32 part.toNat
        let body := toBytes 8 w0.toNat ++ toBytes 8 (line.toNat * 128 + 8 * w) ++ toBytes 8 s.cpu.time.toNat ++ toBytes 8 0
        let s := match s.cfe.watchRings.get c.die.toNat with
          | some r =>
            let x := ringRecord r body
            { s with cfe := { s.cfe with toHost := s.cfe.toHost ++ x.1, watchRings := s.cfe.watchRings.set c.die.toNat (some x.2) } }
          | none => s
        if bit c.wcfg 23 then
          { s with
            dbg := { s.dbg with triggers := s.dbg.triggers + 1 }
            own := { s.own with agenda := if part = partOf s then s.own.agenda ++ [.arrival .watch] else s.own.agenda } }
        else s
      else s
    | none => s) s

/-! ## Copies -/

/-- The home die of a line, as device :: die. -/
def lineDie (ln : LineId) : BitVec 10 := BitVec.ofNat 10 (ln.dev.toNat * 4 + homeDie ln.line)

/-- The line's home is a slice of this device. [log 71: DESIGN CHOICE] -/
def isHome (s : State) (ln : LineId) : Bool := decide (ln.dev.toNat = ownDev s)

/-- The copy in the core's stash. -/
def stashLine (s : State) (ln : LineId) : Option StashLine := s.mem.stash.find? fun l => sameLine l.line ln

/-- A line of another device that came for an access of an engine. -/
def onceLine (s : State) (ln : LineId) : Option PeerLine := heldLine s ln .engine

/-- The line that came for an engine's access has been used. [log 18: DEDUCED] -/
def dropOnce (s : State) (ln : LineId) : State :=
  { s with mem := { s.mem with peers := s.mem.peers.filter fun p => !(decide (p.use = .engine) && decide (p.line = ln)) } }

/-- Marks that a new copy of a home line takes: the words that other cores hold (R232). -/
def homeMarks (s : State) (line : BitVec 37) : List Mark :=
  (dirOf s line).writers.flatMap fun w =>
    (bitsOf w.words).map fun i => { word := i, holder := w.core, release := bit w.release i : Mark }

/-- The sixteen poison bits of a home line. -/
def homeLinePoison (s : State) (line : BitVec 37) : BitVec 16 :=
  maskOf 16 ((List.range 16).filter fun i => homePoisoned s (line.toNat * 128 + 8 * i))

/-- Bytes by offset, newest first, written over a line's data. -/
def overlay (t : Table Byte) (bs : List (Nat × Byte)) : Table Byte := bs.reverse.foldl (fun t b => t.set b.1 b.2) t

/-- A line's bytes as a table by offset. -/
def lineTable (bs : List Byte) : Table Byte := putBytes [] 0 bs

/-- The tree pseudo-LRU state after an access to a way of eight, and the way it names (R205): node i
has children 2i + 1 and 2i + 2, and its bit points to the half used less recently. -/
def plruTouch (t : BitVec 7) (way : Nat) : BitVec 7 :=
  let b2 := way / 4 % 2
  let b1 := way / 2 % 2
  let b0 := way % 2
  let put := fun (t : BitVec 7) (i v : Nat) =>
    if v = 1 then t &&& ~~~ BitVec.ofNat 7 (2 ^ i) else t ||| BitVec.ofNat 7 (2 ^ i)
  put (put (put t 0 b2) (1 + b2) b1) (3 + 2 * b2 + b1) b0

/-- The way that the tree names. -/
def plruVictim (t : BitVec 7) : Nat :=
  let b2 := bnat (bit t 0)
  let b1 := bnat (bit t (1 + b2))
  let b0 := bnat (bit t (3 + 2 * b2 + b1))
  4 * b2 + 2 * b1 + b0

/-- The set of a line (R205). -/
def stashSet (s : State) (ln : LineId) : Nat := ln.line.toNat % (field s.cpu.stashcfg 0 4 * 64)

/-- Stores of whole words overwrite poison, and poisoned words bring theirs (R223). -/
def mergePoison (old poison whole : BitVec 16) : BitVec 16 := (old &&& ~~~ whole) ||| poison

/-- Bytes of stores of the die reach its copy of the line, which serves them (R211). -/
def putPeer (s : State) (ln : LineId) (bs : List (Nat × Byte)) (poison whole : BitVec 16) : State :=
  let put := fun (p : PeerLine) =>
    if p.line = ln then { p with data := overlay p.data bs, poison := mergePoison p.poison poison whole } else p
  { s with mem := { s.mem with peers := s.mem.peers.map put } }

/-- Bytes of the core's own stores reach its own copy of the line, in which they do not count as written: they have
gone home, or to its published value (R92). -/
def putStash (s : State) (ln : LineId) (bs : List (Nat × Byte)) (poison whole : BitVec 16) : State :=
  let put := fun (l : StashLine) =>
    if l.line = ln then { l with data := overlay l.data bs, poison := mergePoison l.poison poison whole } else l
  { s with mem := { s.mem with stash := s.mem.stash.map put } }

/-- Bytes of the core's own stores leave for the home of their line (R205, R210, R213, R229), with the poison
of their words and the words written whole (R223, R264): merged into a home line of this device, or sent to another
device in a WB packet, whose words are whole. The copies of the core and its die take them (R92, R211). A write to an
unpopulated line is discarded with a RAS record (R207). [log 50: DESIGN CHOICE] -/
def writeBack (s : State) (ln : LineId) (key : BitVec 6) (kind : WriteBackKind) (logged : Bool) (bs : List (Nat × Byte)) (poison whole : BitVec 16) : State :=
  let words := wordsIn bs
  let bad := poison &&& words
  let s := putStash (putPeer s ln bs bad whole) ln bs bad whole
  if isHome s ln then
    let pa := ln.line.toNat * 128
    if bs.isEmpty then s
    else
      let s := mergeHome (recordDiscarded s (partOf s) s.cpu.coreId.toNat pa) key ln.line.toNat bs whole
      (bitsOf bad).foldl (fun s w => poisonHome s (pa + 8 * w) 8) s
  else
    let get := fun o => ((bs.find? fun b => decide (b.1 = o)).map (·.2)).getD 0
    let g := grantOf s ln
    let s := if g.words = 0 then s else setGrant s { g with sent := bs ++ g.sent.filter fun x => !(bs.any fun b => decide (b.1 = x.1)) }
    let acks := if kind = .writeBack && reachable s ln.dev.toNat then [{ line := ln, src := .peer (lineDie ln), cls := 5, holds := false, fences := [], home := true }] else []
    inject { s with cpu := { s.cpu with acks := s.cpu.acks ++ acks } } { linePacket s ln (partOf s) 8 5 (wbBytes kind s.cpu.coreId logged words bad get) with key := key } []

/-- The bytes of the words that a mask names, by offset. -/
def bytesOf (words : BitVec 16) (get : Nat → Byte) : List (Nat × Byte) :=
  (bitsOf words).flatMap fun w => (List.range 8).map fun i => (8 * w + i, get (8 * w + i))

/-- SFLUSH of one stash line: its written words go home, it stays valid and clean (R264). -/
def flushLine (s : State) (l : StashLine) : State :=
  if l.written = 0 then s
  else
    let s := writeBack s l.line l.key .writeBack false (bytesOf l.written l.data.get) l.poison l.written
    let put := fun (m : StashLine) => if m.line = l.line then { m with written := 0 } else m
    countEvent { s with mem := { s.mem with stash := s.mem.stash.map put } } 5 1

/-- Remove a copy from the stash without a write-back. -/
def dropStash (s : State) (ln : LineId) : State :=
  { s with mem := { s.mem with stash := s.mem.stash.filter fun l => decide (l.line ≠ ln) } }

/-- Remove a holder of a copy of a home line or of a peer line (R210). -/
def dropSharer (s : State) (ln : LineId) (h : Sharer) : State :=
  if isHome s ln && decide (lineDie ln = ownDie s) then
    let d := dirOf s ln.line
    setDir s ln.line { d with sharers := d.sharers.filter fun x => decide (x ≠ h) }
  else
    let put := fun (p : PeerLine) => if p.line = ln then { p with sharers := p.sharers.filter fun x => decide (x ≠ h) } else p
    { s with mem := { s.mem with peers := s.mem.peers.map put } }

/-- SINV of one stash line: flushed, invalidated, and its eviction notice sent (R264). -/
def evictLine (s : State) (l : StashLine) : State :=
  dropSharer (dropStash (flushLine s l) l.line) l.line (ownStash s)

/-- The core's own copies, which its own publication keeps (R229). -/
def keepsOwn (s : State) (h : Sharer) : Bool := decide (h = ownStash s) || decide (h = .peer (ownDie s))

/-! ## Invalidations (R210, R229, R244, R411) -/

/-- A rectangle of R14 is well formed. -/
def rectWellFormed (r : Word) : Bool :=
  decide (field r 0 5 ≤ field r 10 5) && decide (field r 5 5 ≤ field r 15 5) && decide (field r 15 5 ≤ 19)

/-- A core lies inside a rectangle on its device (R14). -/
def inRect (r : Word) (id : BitVec 18) : Bool :=
  decide (field r 24 8 = idDev id) && decide (field r 0 5 ≤ packageX id) && decide (packageX id ≤ field r 10 5)
    && decide (field r 5 5 ≤ packageY id) && decide (packageY id ≤ field r 15 5)

/-- The cores of the cluster of a core (R12). -/
def clusterCores (id : BitVec 18) : List (BitVec 18) := [0, 1, 16, 17].map fun i => (id &&& 0x3FFEE) ||| i

/-- A holder of a copy lies inside a scope (R244): SYS names the whole system; a cluster is inside when one of its
cores is, and a peer slice when its die meets the rectangle. [log 20: DESIGN CHOICE] -/
def inScope (scope : Word) (h : Sharer) : Bool :=
  bit scope 32 ||
    match h with
    | .stash id => (clusterCores id).any (inRect scope)
    | .peer d =>
      let x := 16 * (d.toNat % 2)
      let y := 10 * (d.toNat % 4 / 2)
      decide (field scope 24 8 = d.toNat / 4) && decide (field scope 0 5 ≤ x + 15) && decide (x ≤ field scope 10 5)
        && decide (field scope 5 5 ≤ y + 9) && decide (y ≤ field scope 15 5)

/-- A scope awaits an acknowledgement (R244): of a copy inside it, and of every home slice. -/
def awaitedIn (scope : Word) (a : Ack) : Bool := a.home || inScope scope a.src

/-- The system scope (R244). -/
def systemScope : Word := at_ 32 1

/-- Who acknowledges an invalidation of a holder's copy: one cluster for all its stashes, which the
directory's vector names together (R210); of the core's own cluster each stash, since the core's own is in
the model. -/
def ackSource (s : State) (h : Sharer) : Sharer :=
  match h with
  | .stash c => if c &&& 0x3FFEE = s.cpu.coreId &&& 0x3FFEE then h else .stash (c &&& 0x3FFEE)
  | .peer _ => h

/-- Invalidations of a home line go out to holders (R210, R411) for a requester of a partition: an INV packet to each
die but the core's own, whose copies take theirs when it arrives. -/
def sendInvalidations (s : State) (part : BitVec 6) (line : BitVec 37) (hs : List Sharer) : State :=
  let s := hs.foldl (fun s h => match h with
    | .peer d => if d = ownDie s || !reachable s (d.toNat / 4) then s else inject s (homePacket s line d part 9 5 []) []
    | .stash _ => s) s
  if hs.any (keepsOwn s) then { s with mem := { s.mem with invs := s.mem.invs ++ [homeLine s line] } } else s

/-- The acknowledgements that invalidations of holders bring (R229): `holds` within a scope, and to each fence
within its own (R244 to R246). -/
def invalidationAcks (s : State) (ln : LineId) (hs : List Sharer) (cls : Nat) (scope : Word) (holds : Bool) (fences : List Fence) (op : Option Nat := none) : List Ack :=
  let far := hs.filter fun h => match h with
    | .peer d => decide (d = ownDie s) || reachable s (d.toNat / 4)
    | .stash _ => true
  ((far.map (ackSource s)).eraseDups).map fun h =>
    { line := ln, src := h, cls := cls, holds := holds && inScope scope h, fences := fences.filter fun f => f.deep && inScope f.scope h, op := op }

/-- Acknowledgements that are awaited from now on. -/
def awaitAcks (s : State) (acks : List Ack) : State := { s with cpu := { s.cpu with acks := s.cpu.acks ++ acks } }

/-- Only the holders that `keep` names stay recorded for a home line, at the home and behind the peer copy of the
core's die (R210, R211). -/
def keepHolders (s : State) (line : BitVec 37) (keep : Sharer → Bool) : State :=
  let put := fun (p : PeerLine) => if p.line = homeLine s line then { p with sharers := p.sharers.filter fun h => keep h || decide (h = ownStash s) } else p
  let d := dirOf s line
  setDir { s with mem := { s.mem with peers := s.mem.peers.map put } } line { d with sharers := d.sharers.filter keep, overflow := false }

/-- Only one stash stays recorded behind the copy of the core's die (R211). -/
def keepBehind (s : State) (ln : LineId) (h : Sharer) : State :=
  let put := fun (p : PeerLine) => if p.line = ln then { p with sharers := p.sharers.filter fun x => decide (x = h) } else p
  { s with mem := { s.mem with peers := s.mem.peers.map put } }

/-- An access at the home of a line for which copies are invalidated (R210, R229): who asks (R399), the class of the
acknowledgements, the scope within which they hold the core's effects back, and the fences and the engine operation
that await them. -/
structure Cause where
  part : BitVec 6
  cls : Nat
  scope : Word := systemScope
  holds : Bool := false
  fences : List Fence := []
  op : Option Nat := none

/-- Invalidate every copy of a home line but those that `keep` names (R210, R229): this core's copies by an
invalidation on its way, others' by an INV whose acknowledgement is awaited. -/
def invalidateOthers (s : State) (line : BitVec 37) (keep : Sharer → Bool) (c : Cause) : State :=
  let out := (holdersOf s line).filter fun h => !(keep h)
  let acks := invalidationAcks s (homeLine s line) out c.cls c.scope c.holds c.fences c.op
  sendInvalidations (awaitAcks (keepHolders s line keep) acks) c.part line out

/-! ## The L2 slices (R209 to R211) -/

/-- The set of a line in its slice (R209). -/
def sliceSet (line : BitVec 37) : Nat := Nat.xor (field line 0 10) (field line 10 10)

/-- The number of the set of a line on a die of this device. -/
def l2Key (die : Nat) (line : BitVec 37) : Nat := (die * 64 + homeSlice line) * 1024 + sliceSet line

/-- A line with a writer slot in use is never chosen as a victim (R209). -/
def isPinned (s : State) (ln : LineId) : Bool :=
  decide ((grantOf s ln).words ≠ 0) || (isHome s ln && !(dirOf s ln.line).writers.isEmpty)

/-- The node above a way at a depth of the tree of 16, and the half of it that the way lies in. -/
def l2Node (way k : Nat) : Nat × Nat := (2 ^ k - 1 + way / 2 ^ (4 - k), way / 2 ^ (3 - k) % 2)

/-- The pseudo-LRU state of a set after an access to a way, which a streaming line enters at the lowest
position (R209). [log 77: DESIGN CHOICE] -/
def l2Touch (t : BitVec 15) (way : Nat) (low : Bool) : BitVec 15 :=
  (List.range 4).foldl (fun (t : BitVec 15) k =>
    let n := l2Node way k
    let v := if low then n.2 else 1 - n.2
    if v = 1 then t ||| BitVec.ofNat 15 (2 ^ n.1) else t &&& ~~~ BitVec.ofNat 15 (2 ^ n.1)) t

/-- The way that the tree names. -/
def l2Named (t : BitVec 15) : Nat :=
  (List.range 4).foldl (fun w k => 2 * w + bnat (bit t (2 ^ k - 1 + w))) 0

/-- The way that a fill takes (R209): the lowest that holds nothing, else the one that the tree names, else,
when that is pinned, a free choice of the others; none when all are pinned. [log 77: DESIGN CHOICE] -/
def l2Way (s : State) (x : L2Set) : Option Nat :=
  match (List.range 16).find? fun w => (x.ways.get w).isNone with
  | some w => some w
  | none =>
    let open_ := (List.range 16).filter fun w => !((x.ways.get w).any (isPinned s))
    if open_.contains (l2Named x.plru) then some (l2Named x.plru)
    else open_[pick (Config.choiceAt s.own.tick (l2Named x.plru)) open_.length]?

/-- A set of a slice no longer holds a line. -/
def l2Drop (s : State) (die : Nat) (ln : LineId) : State :=
  let key := l2Key die ln.line
  let x := s.mem.l2.get key
  match (List.range 16).find? fun w => (x.ways.get w).any (sameLine ln) with
  | some w => { s with mem := { s.mem with l2 := s.mem.l2.set key { x with ways := x.ways.set w none } } }
  | none => s

/-- The copies of a line that the core and its die hold go, the core's written words first written back
(R210). -/
def dropCopies (s : State) (ln : LineId) : State :=
  let s := match stashLine s ln with
    | some l => dropStash (flushLine s l) ln
    | none => s
  let s := if (peerLine s ln).isSome then l2Drop s (idDie s.cpu.coreId) ln else s
  { s with mem := { s.mem with peers := s.mem.peers.filter fun p => decide (p.line ≠ ln) } }

/-- The peer copy of the core's die is gone: the line's home is told (R210, R411). -/
def noticeEviction (s : State) (ln : LineId) : State :=
  if isHome s ln then
    let d := dirOf s ln.line
    setDir s ln.line { d with sharers := d.sharers.filter fun x => decide (x ≠ .peer (ownDie s)) }
  else inject s (linePacket s ln (partOf s) 8 5 (wbBytes .eviction s.cpu.coreId false 0 0 fun _ => 0)) []

/-- A slice gives up a line that a fill replaces (R210): of a home line every copy is invalidated, and its
content goes to DRAM; a peer copy goes with the stash copies of its die, and its home is told. What the core awaits of
it stays at hand for the instruction that waits. -/
def evictL2 (s : State) (die : Nat) (ln : LineId) : State :=
  if isHome s ln && decide (homeDie ln.line = die) then invalidateOthers s ln.line (fun _ => false) { part := partOf s, cls := 5 }
  else
    let used := if isHome s ln then [] else ((peerLine s ln).map fun p => { p with use := .core, sharers := [] }).toList
    let s := awaitAcks s (invalidationAcks s ln (dieStashes s ln) 5 systemScope false [])
    let s := noticeEviction (dropCopies s ln) ln
    { s with mem := { s.mem with peers := s.mem.peers ++ used } }

/-- A line is used in its slice, or filled into it; none while every way of its set is pinned (R209). -/
def l2Reach (s : State) (die : Nat) (ln : LineId) (low : Bool) : Option State :=
  let key := l2Key die ln.line
  let x := s.mem.l2.get key
  let touch := fun (s : State) (w : Nat) =>
    { s with mem := { s.mem with l2 := s.mem.l2.set key { ways := x.ways.set w (some ln), plru := l2Touch x.plru w low } } }
  match (List.range 16).find? fun w => (x.ways.get w).any (sameLine ln) with
  | some w => some (touch s w)
  | none =>
    (l2Way s x).map fun w =>
      touch (match x.ways.get w with
        | some v => evictL2 s die v
        | none => s) w

/-- The home slice of a line of this device is reached by an access that does not wait for room in its set, a
streaming line at the lowest position (R209): when there is no room the line is served without being allocated. [log 77: DESIGN CHOICE] -/
def touchHome (s : State) (ln : LineId) (low : Bool) : State :=
  if isHome s ln then (l2Reach s (homeDie ln.line) ln low).getD s else s

/-! ## Fills -/

/-- Put a filled line into the stash, replacing the victim of its set (R205). [log 19: DESIGN CHOICE] -/
def insertStash (s : State) (ln : LineId) (key : BitVec 6) (bytes : List Byte) (poison : BitVec 16) (marks : List Mark) : State :=
  let set := stashSet s ln
  let ways := (s.mem.stash.filter fun l => decide (l.set = set)).map (·.way)
  let way := ((List.range 8).find? fun w => !(ways.contains w)).getD (plruVictim (s.mem.plru.get set))
  let s := match s.mem.stash.find? fun l => decide (l.set = set) && decide (l.way = way) with
    | some victim => evictLine s victim
    | none => s
  let l : StashLine := { line := ln, set := set, way := way, data := lineTable bytes, poison := poison, written := 0, key := key, marks := marks }
  countEvent { s with mem := { s.mem with stash := s.mem.stash ++ [l], plru := s.mem.plru.set set (plruTouch (s.mem.plru.get set) way) } } 4 1

/-- Fill the peer copy of the core's die from the home, when the home is a slice of this device
(R211). -/
def fillPeer (s : State) (ln : LineId) (key : BitVec 6) : State :=
  let p : PeerLine := { line := ln, data := lineTable (homeBytes s key (ln.line.toNat * 128) 128), poison := homeLinePoison s ln.line, marks := homeMarks s ln.line, sharers := [], key := key, use := .copy }
  addSharer { s with mem := { s.mem with peers := s.mem.peers ++ [p] } } ln.line (.peer (ownDie s))

/-- Where a plain access finds a line: the bytes by offset, its poison bits and its marks. -/
structure LineView where
  data : Table Byte
  poison : BitVec 16
  marks : List Mark

/-- A request for a line homed on another device leaves once (R400, R411) for a requester of a partition: a fill,
the line for one access, or a grant. [log 18: DEDUCED] -/
def requestLine (s : State) (ln : LineId) (want : Want) (key part : BitVec 6) (release : Bool) (body : List Byte) : State :=
  if s.mem.requested.any fun r => decide (r.line = ln) && decide (r.want = want) then s
  else
    let p := if want = .grant then corePacket s ln 5 4 body else { linePacket s ln part 4 4 body with key := key }
    let s := inject s p []
    { s with mem := { s.mem with requested := s.mem.requested ++ [{ line := ln, want := want, key := key, release := release }] } }

/-- A request for a device outside the domain reaches the switch all the same, which discards it (R400); the access
goes on as to a device that no path reaches (R398). -/
def lostRequest (s : State) (ln : LineId) (kind : Nat) (body : List Byte) : State :=
  if inDomain s ln.dev.toNat then s else inject s (corePacket s ln kind 4 body) []

/-- The store buffer without the entry of a line. -/
def dropBuffered (s : State) (ln : LineId) : State :=
  { s with mem := { s.mem with buffer := s.mem.buffer.filter fun c => decide (c.line ≠ ln) } }

/-- What the core holds of a line under another key id goes home: its buffered bytes, its own copy, the copy of its
die, and what of its words went to another device's home (R212). -/
def dropOtherKey (s : State) (ln : LineId) (key : BitVec 6) : State :=
  let s := match s.mem.buffer.find? fun b => sameLine b.line ln with
    | some b =>
      if b.key = key then s
      else
        let t := writeBack (dropBuffered s ln) ln b.key .writeBack false b.bytes b.poison b.whole
        setGrant t { grantOf t ln with sent := [] }
    | none => s
  let s := match stashLine s ln with
    | some l => if l.key = key then s else evictLine s l
    | none => s
  match peerLine s ln with
  | some p => if p.key = key then s else noticeEviction (dropCopies s ln) ln
  | none => s

/-- What the core has written in its stash of a line that it now accesses at the home goes there first (R92). -/
def flushOwn (s : State) (ln : LineId) : State :=
  match stashLine s ln with
  | some l => flushLine s l
  | none => s

/-- A set of the slices that a plain access goes through has room for its line (R209): the home slice on this
device, and the peer-copy slice of the core's die. -/
def l2Room (s : State) (ln : LineId) (cached low : Bool) : Option State :=
  (if isHome s ln then l2Reach s (homeDie ln.line) ln low else some s).bind fun s =>
    if cached && decide (lineDie ln ≠ ownDie s) then l2Reach s (idDie s.cpu.coreId) ln false else some s

/-- What a fill of the core's stash takes: the line from the home of this device or from the copy of its die,
for the access of a page that allows no copy from the home itself. -/
def lineView (s : State) (ln : LineId) (key : BitVec 6) (copy : Option PeerLine) : LineView :=
  match copy with
  | some p => { data := p.data, poison := p.poison, marks := p.marks }
  | none => { data := lineTable (homeBytes s key (ln.line.toNat * 128) 128), poison := homeLinePoison s ln.line, marks := homeMarks s ln.line }

/-- The stash is recorded as a holder: at the home on its die, or at the peer copy of its die (R210, R211). -/
def recordStash (s : State) (ln : LineId) : State :=
  if isHome s ln && decide (lineDie ln = ownDie s) then addSharer s ln.line (ownStash s)
  else
    let put := fun (p : PeerLine) => if p.line = ln && !(p.sharers.contains (ownStash s)) then { p with sharers := p.sharers ++ [ownStash s] } else p
    { s with mem := { s.mem with peers := s.mem.peers.map put } }

/-- Publish every unpublished store: see `publish`. A wait of R236 takes it as an argument here, since a
publication itself reaches lines. -/
abbrev Waiting := State → State

/-- Make a line available to a plain access of a page (R204, R205, R209, R211): in the stash, in the
peer-copy slice, or at the home. A line of another device that is not at hand is requested, and the access
waits; what its set gave up meanwhile serves it (R195). It waits also while a set of a slice has no room, after
publishing (R236). A device that no path reaches gives poisoned data (R398). `words` are those that the access reads. [log 18: DEDUCED; 71: DESIGN CHOICE] -/
def reachLineOr (waiting : Waiting) (s : State) (ln : LineId) (key : BitVec 6) (cache : Nat) (words : BitVec 16) : Acc LineView :=
  let here := isHome s ln
  let cached := decide (cache = 0) && !(here && isWatched s ln.line)
  let peered := decide (lineDie ln ≠ ownDie s)
  let s := dropOtherKey s ln key
  let s := if cached then s else flushOwn s ln
  match (if cached && hasStash s then stashLine s ln else none) with
  | some l =>
    .ok { s with mem := { s.mem with plru := s.mem.plru.set l.set (plruTouch (s.mem.plru.get l.set) l.way) } }
      { data := l.data, poison := l.poison, marks := l.marks }
  | none =>
    let copy := if cached then peerLine s ln else heldLine s ln .core
    if !here && copy.isNone && !reachable s ln.dev.toNat then .ok (lostRequest s ln 4 []) { data := [], poison := 0xFFFF, marks := [] }
    else
      match (if cached && copy.isNone then heldLine s ln .core else none) with
      | some p => .ok s (lineView s ln key (some p))
      | none =>
        match l2Room s ln cached (decide (cache = 2)) with
        | none => .stall (waiting s)
        | some s =>
          if !here && copy.isNone then .stall (requestLine s ln (.line (if cached then .copy else .core)) key (partOf s) false [])
          else
            let s := if cached && here && peered && copy.isNone then fillPeer s ln key else s
            let view := lineView s ln key (if cached then peerLine s ln else copy)
            let s := if here && !(cached && copy.isSome) then watchMatch s ln.line (if cached && peered then 6 else 0) (sourcePort s ln.line s.cpu.coreId) 1 (partOf s) words else s
            if cached && hasStash s then .ok (recordStash (insertStash s ln key ((List.range 128).map view.data.get) view.poison view.marks) ln) view
            else .ok s view

/-! ## Publication (R228, R229) -/

/-- Effects that another agent could observe are held back (R229). [log 20: DESIGN CHOICE] -/
def isHeld (s : State) : Bool :=
  let on := fun (l : List Fence) => l.any fun f => decide (f.cls = 5)
  (s.cpu.acks.any fun a => a.holds || on a.fences) || (s.cpu.inFlight.any fun i => on i.fences)

/-- Later accesses of class `q` wait for a fence, an acquire or a FENCEX (R230, R245, R246); of engine
commands those from a number on. [log 20: DESIGN CHOICE] -/
def isFencedFrom (s : State) (q id : Nat) : Bool :=
  let on := fun (l : List Fence) => l.any fun f => decide (f.cls = q) && decide (f.first ≤ id)
  (s.cpu.acks.any fun a => on a.fences) || (s.cpu.inFlight.any fun i => on i.fences)

/-- The home of a line has not acknowledged all that the core has sent it (R229, R400). -/
def homePending (s : State) (ln : LineId) : Bool := s.cpu.acks.any fun a => decide (a.line = ln) && a.home

/-- Later core accesses of class `q` wait. -/
def isFenced (s : State) (q : Nat) : Bool := isFencedFrom s q s.cpu.nextId

/-- The bytes that the buffer holds for a line, newest first. -/
def bufferedByte (s : State) (ln : LineId) (off : Nat) : Option Byte :=
  match s.mem.buffer.find? fun b => sameLine b.line ln with
  | some b => (b.bytes.find? fun p => decide (p.1 = off)).map (·.2)
  | none => none

/-- A byte that the core has sent to the home on another device and not yet published (R92). -/
def sentByte (s : State) (ln : LineId) (off : Nat) : Option Byte :=
  ((grantOf s ln).sent.find? fun p => decide (p.1 = off)).map (·.2)

/-- The core's own value of a byte of a line it wrote: buffer, then stash, then the copy of its die, then
what went to the home (R92, R213). -/
def ownByte (s : State) (ln : LineId) (key : BitVec 6) (off : Nat) : Byte :=
  match bufferedByte s ln off with
  | some b => b
  | none =>
    match stashLine s ln with
    | some l => l.data.get off
    | none =>
      if isHome s ln then homeByte s key (ln.line.toNat * 128 + off)
      else
        match sentByte s ln off with
        | some b => b
        | none => (((peerLine s ln).orElse fun _ => heldLine s ln .core).map fun p => p.data.get off).getD 0

/-- Words of a line whose bytes are in the store buffer. -/
def bufferedWords (s : State) (ln : LineId) : BitVec 16 :=
  match s.mem.buffer.find? fun b => sameLine b.line ln with
  | some b => wordsIn b.bytes
  | none => 0

/-- The words of a line that one buffered store wrote whole: their poison is overwritten (R223). -/
def wholeWords (s : State) (ln : LineId) : BitVec 16 :=
  match s.mem.buffer.find? fun b => sameLine b.line ln with
  | some b => b.whole
  | none => 0

/-- Bytes of the store buffer merged into the stash line (R205, R213). -/
def mergeStash (s : State) (b : Buffered) : State :=
  let put := fun (l : StashLine) =>
    if l.line = b.line then
      { l with data := overlay l.data b.bytes, poison := mergePoison l.poison b.poison b.whole, written := l.written ||| wordsIn b.bytes }
    else l
  { s with mem := { s.mem with stash := s.mem.stash.map put } }

/-- Drain one buffer entry: into the stash line, or with its byte mask to the home slice (R213). It waits
while the line is not at hand. -/
def drainEntry (s : State) (b : Buffered) : State :=
  let home := fun (s : State) => writeBack (dropBuffered s b.line) b.line b.key .writeBack false b.bytes b.poison b.whole
  if b.direct || !hasStash s then home s
  else
    match reachLineOr id s b.line b.key 0 0xFFFF with
    | .ok s _ => if (stashLine s b.line).isSome then mergeStash (dropBuffered s b.line) b else home s
    | .trap s _ _ => s
    | .stall s => s

/-- A monitor decrement may leave: the invalidations of its line are acknowledged (R268). -/
def mayFire (s : State) (f : Firing) : Bool :=
  !(s.cpu.acks.any fun a => decide (a.line = f.line) && decide (a.cls ≠ 6)) && !(s.mem.invs.contains f.line)

/-- Monitor decrements for other cores that may leave do so as MDEC packets (R268, R398); those for this core
are on their way to it. -/
def sendFirings (s : State) : State :=
  let go := s.mem.firings.filter fun f => decide (f.core ≠ s.cpu.coreId) && mayFire s f
  let s := { s with mem := { s.mem with firings := s.mem.firings.filter fun f => !(go.contains f) } }
  go.foldl (fun s f =>
    inject s (slicePacket s (homeDie f.line.line) f.line.line (idDev f.core) (corePort f.core) f.part 3 3 (toBytes 2 f.n.toNat ++ toBytes 2 f.status.toNat ++ toBytes 1 f.word.toNat)) []) s

/-- One registration is removed and owes its decrement (R268, R269). -/
def addFiring (s : State) (r : Registration) (status : BitVec 16) : State :=
  { s with mem := { s.mem with firings := s.mem.firings ++ [{ core := r.core, line := homeLine s r.line, word := r.word, part := r.part, n := r.n, status := status }] } }

/-- A write covering words of a home line fires the monitors registered on them (R268). -/
def fireMonitors (s : State) (line : BitVec 37) (words : BitVec 16) : State :=
  let hit := fun (r : Registration) => decide (r.line = line) && bit words r.word.toNat
  let fired := s.mem.monitors.filter hit
  let s := { s with mem := { s.mem with monitors := s.mem.monitors.filter fun r => !(hit r) } }
  sendFirings (fired.foldl (fun s r => addFiring s r 0) s)

/-- The key id of what the core has written of a line. -/
def writtenKey (s : State) (ln : LineId) : BitVec 6 :=
  ((s.mem.buffer.find? fun b => sameLine b.line ln).map (·.key)).getD (((stashLine s ln).map (·.key)).getD 0)

/-- What the core still holds of a line that it has written (R229): bytes by offset, newest first, the poison of their
words, and the words written whole. -/
structure HeldBytes where
  bytes : List (Nat × Byte)
  poison : BitVec 16
  whole : BitVec 16

/-- The bytes in the store buffer, and the written words of the stash line (R229). -/
def heldBytes (s : State) (ln : LineId) : HeldBytes :=
  let b := s.mem.buffer.find? fun b => sameLine b.line ln
  let bs := (b.map (·.bytes)).getD []
  let bad := (b.map (·.poison)).getD 0
  match stashLine s ln with
  | some l =>
    { bytes := bs ++ (bytesOf l.written l.data.get).filter fun x => !(bs.any fun y => decide (y.1 = x.1))
      poison := mergePoison (l.poison &&& l.written) bad (wholeWords s ln), whole := wholeWords s ln ||| l.written }
  | none => { bytes := bs, poison := bad, whole := wholeWords s ln }

/-- The words of a line that the core holds are published (R229): what is still held is merged, the slot
freed, the other copies invalidated, those behind the copy of its die among them (R211), and monitors fire. -/
def performPublication (scope : Word) (fences : List Fence) (s : State) (g : Grant) : State :=
  let key := writtenKey s g.line
  let x := heldBytes s g.line
  let s := match s.mem.buffer.find? fun b => sameLine b.line g.line with
    | some b => mergeStash s b
    | none => s
  let s := setGrant (dropBuffered s g.line) { g with words := 0 }
  let s := writeBack s g.line key .publication g.logged x.bytes x.poison x.whole
  let s := { s with mem := { s.mem with stash := s.mem.stash.map fun l => if l.line = g.line then { l with written := 0 } else l } }
  if isHome s g.line then
    let s := if g.written = 0 then s else watchMatch s g.line.line 0 (sourcePort s g.line.line s.cpu.coreId) 2 (partOf s) g.written
    let s := if g.logged && decide (g.written ≠ 0) then logChoice s (sliceRecord (partOf s) g.line.line s.cpu.coreId.toNat 2) else s
    fireMonitors (invalidateOthers s g.line.line (keepsOwn s) { part := partOf s, cls := 0, scope := scope, holds := true, fences := fences }) g.line.line g.written
  else
    let near := invalidationAcks s g.line (dieStashes s g.line) 0 scope true fences
    let home : Ack := { line := g.line, src := .peer (lineDie g.line), cls := 0, holds := true, fences := fences, home := true }
    let s := keepBehind (awaitAcks s near) g.line (ownStash s)
    if reachable s g.line.dev.toNat then awaitAcks s [home] else s

/-- The words of its line that a run of bytes at a physical address covers. -/
def wordsAt (pa n : Nat) : BitVec 16 :=
  maskOf 16 ((List.range 16).filter fun w => decide (pa % 128 < 8 * w + 8) && decide (8 * w < pa % 128 + n))

/-- A word of a home line is held by a core other than `who` (R238). -/
def heldFor (s : State) (line : BitVec 37) (words : BitVec 16) (who : BitVec 18) : Bool :=
  (decide (who ≠ s.cpu.coreId) && decide ((grantOf s (homeLine s line)).words &&& words ≠ 0))
    || (dirOf s line).writers.any fun w => decide (w.core ≠ who) && decide (w.words &&& words ≠ 0)

/-- An atomic of the core is on its way to the line's home slice (R240): it comes before a publication there,
unless another core's word keeps it at a slice of this device (R238). [log 17: DEDUCED] -/
def atomicFirst (s : State) (ln : LineId) : Bool :=
  if isHome s ln then
    s.mem.kept.any fun k => match k with
      | .atomic r (some _) => decide (r.pa.toNat / 128 = ln.line.toNat) && !(heldFor s ln.line (wordsAt r.pa.toNat (atomSize r)) r.core)
      | _ => false
  else s.cpu.inFlight.any fun a => decide (a.dev = ln.dev) && decide (a.pa.toNat / 128 = ln.line.toNat)

/-- In replay the home slice holds a publication of a logged line until its turn (R240, R390). -/
def replayPublication (s : State) (g : Grant) : Bool :=
  g.logged && decide (g.written ≠ 0) && isHome s g.line && replayHolds s (sliceRecord (partOf s) g.line.line s.cpu.coreId.toNat 2)

/-- A publication has to wait at its home slice (R240). -/
def publicationWaits (s : State) (g : Grant) : Bool := replayPublication s g || atomicFirst s g.line

/-- A publication of the line is held at its home slice. -/
def isPublishing (s : State) (ln : LineId) : Bool :=
  s.mem.kept.any fun k => match k with
    | .publication l _ => decide (l = ln)
    | _ => false

/-- What the home slice's own acknowledgement of a publication is, while the publication is held there. -/
def publicationAck (ln : LineId) : Ack :=
  { line := ln, src := .peer (lineDie ln), cls := 0, holds := true, fences := [], home := true }

/-- Publish the words of one line that the core holds (R229): at once, or once its turn in the line's order has
come (R240); the release is not acknowledged before. -/
def publishLine (scope : Word) (s : State) (g : Grant) : State :=
  if isPublishing s g.line then s
  else if publicationWaits s g then awaitAcks { s with mem := { s.mem with kept := s.mem.kept ++ [.publication g.line scope] } } [publicationAck g.line]
  else performPublication scope [] s g

/-- Publish every unpublished store of the core, as a release within a scope (R228, R229, R244). -/
def publishIn (s : State) (scope : Word) : State := s.mem.grants.foldl (publishLine scope) s

/-- A release with system scope. -/
def publish (s : State) : State := publishIn s systemScope

/-- An earlier request of the same core precedes a request (R240, R241): of the same line; or, for requests of
this core, when the later one is a release, and when both homes lie on its die, save that a returning request
may pass a posted one. -/
def precedes (s : State) (r q : AtomRequest) : Bool :=
  let die := fun (a : AtomRequest) => homeDie (BitVec.ofNat 37 (a.pa.toNat / 128))
  decide (q.core = r.core) &&
    (decide (q.pa.toNat / 128 = r.pa.toNat / 128)
      || (decide (r.core = s.cpu.coreId) && (decide (2 ≤ r.order.toNat)
        || (decide (die q = idDie s.cpu.coreId) && decide (die r = idDie s.cpu.coreId) && !(q.posted && !r.posted)))))

/-- A request meets a word that another core holds (R238). -/
def meetsHeld (s : State) (r : AtomRequest) : Bool :=
  heldFor s (BitVec.ofNat 37 (r.pa.toNat / 128)) (wordsAt r.pa.toNat (atomSize r)) r.core

/-- The requests that home slices keep until other cores publish (R238): those that meet a held word, and those
behind them in their order. -/
def keptRequests (s : State) : List AtomRequest :=
  s.mem.kept.foldl (fun acc k =>
    let group := match k with
      | .atomic r _ => [r]
      | .group g => g
      | _ => []
    if group.any fun r => meetsHeld s r || acc.any (precedes s r) then acc ++ group else acc) []

/-- The core waits for atomics (R236): it publishes first when a home slice of this device keeps one of them;
whether a slice of another device does is free. -/
def waitForAtomics (s : State) (which : InFlight → Bool) : State :=
  let mine := s.cpu.inFlight.filter which
  let blocked := keptRequests s
  let kept := s.mem.kept.any fun k => match k with
    | .atomic r (some id) => (mine.any fun a => decide (a.id = id)) && blocked.contains r
    | _ => false
  if kept then publish s
  else if mine.any fun a => decide (a.dev.toNat ≠ ownDev s) then
    let d := draw s 2
    if d.1 = 0 then d.2 else publish d.2
  else s

/-- A later access waits for an acquire or a fence (R230, R236, R245): among what it waits for may be atomics. -/
def waitFenced (s : State) (q : Nat) : State := waitForAtomics s fun a => a.fences.any fun f => decide (f.cls = q)

/-- Make a line available to a plain access of the core, which publishes when it waits for room (R236). -/
def reachLine (s : State) (ln : LineId) (key : BitVec 6) (cache : Nat) (words : BitVec 16) : Acc LineView :=
  reachLineOr publish s ln key cache words

/-! ## Translation (R216 to R221) -/

/-- A leaf that a walk found, with its size. -/
structure Leaf where
  word : Word
  big : Bool
  deriving DecidableEq, Repr

/-- The translation context: partition, root and keys. -/
structure Context0 where
  part : BitVec 6
  xroot : Word
  keymask : Word

/-- The context of the core. -/
def ownContext (s : State) : Context0 := { part := partOf s, xroot := s.cpu.xroot, keymask := s.cpu.keymask }

/-- A leaf's frame lies in a region that is neither SHARED nor owned by the partition (R358); whether one of
another device does is a free value. [log 78: DESIGN CHOICE] -/
def foreignRegion (s : State) (part : BitVec 6) (e : Word) : Bool :=
  if field e 56 8 = ownDev s then
    match s.cfe.owners.get (field e 29 15) with
    | none => false
    | some o => decide (o ≠ part)
  else Config.farRegion s.own.tick (field e 56 8) (field e 29 15) part

/-- The first condition of R219 that an entry of a level meets, by number. -/
def entryReason (s : State) (c : Context0) (lvl : Nat) (e : Word) (poisoned : Bool) : Option Nat :=
  let leaf := bit e 6
  if !bit e 0 then some 1
  else if leaf && decide (lvl = 1) then some 2
  else if !leaf && decide (lvl = 3) then some 3
  else if decide (field e 13 3 ≠ 0) || decide (field e 7 3 ≠ 0) || bit e 1 || decide (leaf && field e 10 2 = 3)
      || (leaf && bit e 3 && !bit e 2)
      || (!leaf && (decide (field e 44 20 ≠ 0) || decide (field e 10 3 ≠ 0) || decide (field e 2 4 ≠ 0))) then some 4
  else if leaf && decide (lvl = 2) && decide (field e 16 13 ≠ 0) then some 5
  else if poisoned then some 6
  else if leaf && !bit c.keymask (field e 44 6) then some 8
  else if leaf && foreignRegion s c.part e then some 9
  else none

/-- The physical address of the entry of a level (R216). -/
def entryAddr (frame va lvl : Nat) : Nat := frame * 65536 + 8 * (va / 2 ^ (55 - 13 * lvl) % 2 ^ 13)

/-- A poisoned granule lies in the line of an address. -/
def linePoisoned (s : State) (pa : Nat) : Bool := homePoison s (pa / 128 * 128) 128

/-- The peer copy of the core's die in which a walk finds a table entry: a walk is a coherent-cached read through the L2
of the die (R211, R219), under key id 0, since neither XROOT nor a table entry names one. [log 89: DESIGN CHOICE] -/
def tableCopy (s : State) (pa : Nat) : Option PeerLine :=
  (peerLine s (homeLine s (BitVec.ofNat 37 (pa / 128)))).filter fun p => decide (p.key = 0)

/-- The table entry at a physical address as a walk reads it (R219). -/
def entryWord (s : State) (pa : Nat) : Word :=
  match tableCopy s pa with
  | some p => wordOf ((List.range 8).map fun i => p.data.get (pa % 128 + i))
  | none => homeDword s 0 pa

/-- The line of a table entry holds poison (R219). -/
def entryPoisoned (s : State) (pa : Nat) : Bool :=
  match tableCopy s pa with
  | some p => decide (p.poison ≠ 0)
  | none => linePoisoned s pa

/-- A walk from a level on, over the levels that remain (R219): the leaf, or the reason and level. -/
def walkFrom (s : State) (c : Context0) (va : Nat) : Nat → Nat → Nat → Except (Nat × Nat) Leaf
  | 0, lvl, _ => .error (3, lvl)
  | n + 1, lvl, frame =>
    let pa := entryAddr frame va lvl
    let e := entryWord s pa
    match entryReason s c lvl e (entryPoisoned s pa) with
    | some r => .error (r, lvl)
    | none =>
      if bit e 6 then .ok { word := e, big := decide (lvl = 2) }
      else walkFrom s c va n (lvl + 1) (field e 16 28)

/-- A walk of the three levels (R216, R219). -/
def walk (s : State) (c : Context0) (va : Nat) : Except (Nat × Nat) Leaf :=
  if bit c.xroot 0 then walkFrom s c va 3 1 (field c.xroot 16 28) else .error (7, 0)

/-- The first address of the page of a leaf. -/
def pageBase (l : Leaf) (va : Nat) : Nat := if l.big then va / 2 ^ 29 * 2 ^ 29 else va / 65536 * 65536

/-- PA of a virtual address under a leaf (R216). -/
def leafPa (l : Leaf) (va : Nat) : Nat :=
  if l.big then field l.word 29 15 * 2 ^ 29 + va % 2 ^ 29 else field l.word 16 28 * 65536 + va % 65536

/-- The number of the last step that invalidated the cluster's translation of an address by a page of a size, 0 for
none: an invalidation of one address takes the entry of either size that holds it (R370). -/
def lastInvalidated (s : State) (part : BitVec 6) (va : Nat) (big : Bool) : Nat :=
  let size := if big then 2 ^ 29 else 65536
  s.mem.tlbinvs.foldl (fun n i =>
    if i.part = part && (match i.va with
      | none => true
      | some a => decide (a / size = va / size)) then max n i.tick else n) 0

/-- The entries that a walk may have found at an address since a step: the present one and those that writes
have replaced (R221). -/
def entryValues (s : State) (since pa : Nat) : List Word :=
  (entryWord s pa :: homeDword s 0 pa :: (s.mem.oldEntries.filter fun o => decide (o.pa = pa) && decide (since < o.tick)).map (·.word)).eraseDups

/-- The leaves of a page that walks of the cluster may have found since a step, from a level on (R221). [log 15: DEDUCED] -/
def pastWalks (s : State) (c : Context0) (va since : Nat) : Nat → Nat → Nat → List Leaf
  | 0, _, _ => []
  | n + 1, lvl, frame =>
    let pa := entryAddr frame va lvl
    (entryValues s since pa).flatMap fun e =>
      if (entryReason s c lvl e (entryPoisoned s pa)).isSome then []
      else if bit e 6 then [{ word := e, big := decide (lvl = 2) }]
      else pastWalks s c va since n (lvl + 1) (field e 16 28)

/-- Leaves of the page that differ from what a walk finds now, and that the cluster's cache may hold (R221):
those of this core's own accesses and its engines', and those that others may have found before a write
changed the tables. [log 15: DEDUCED] -/
def cachedLeaves (s : State) (c : Context0) (va : Nat) (now : Except (Nat × Nat) Leaf) : List Leaf :=
  let own := (s.mem.tlb.filter fun t => decide (t.part = c.part) && decide (pageBase { word := t.leaf, big := t.big } va = t.base)).map
    fun t => { word := t.leaf, big := t.big : Leaf }
  let past := fun (big : Bool) => (pastWalks s c va (lastInvalidated s c.part va big) 3 1 (field c.xroot 16 28)).filter fun l => l.big == big
  let others := if s.mem.oldEntries.isEmpty || !bit c.xroot 0 then [] else past false ++ past true
  (own ++ others).eraseDups.filter fun t => match now with
    | .ok l => decide (t ≠ l)
    | .error _ => true

/-- The entries that a walk reads from a level on (R219). -/
def walkReads (s : State) (c : Context0) (va : Nat) : Nat → Nat → Nat → List Nat
  | 0, _, _ => []
  | n + 1, lvl, frame =>
    let pa := entryAddr frame va lvl
    let e := entryWord s pa
    pa :: (if (entryReason s c lvl e (entryPoisoned s pa)).isSome || bit e 6 then [] else walkReads s c va n (lvl + 1) (field e 16 28))

/-- A walk reads the line of a table entry through the L2 of the core's die (R209, R211, R219): it fills the peer copy
of the die, unless a comparator watches the line (R379), and comparators see what reaches the home (R380). Without room
in a set the line is served without being allocated. [log 77: DESIGN CHOICE] -/
def readEntry (c : Context0) (s : State) (pa : Nat) : State :=
  let line := BitVec.ofNat 37 (pa / 128)
  let ln := homeLine s line
  let copied := !(isWatched s line)
  let s := match l2Room s ln copied false with
    | some t => if copied && decide (lineDie ln ≠ ownDie t) && (peerLine t ln).isNone then fillPeer t ln 0 else t
    | none => s
  watchMatch s line 5 (sourcePort s line s.cpu.coreId) 1 c.part (maskOf 16 [pa / 8 % 16])

/-- The reads of a walk (R219); a walk is made when the cache holds no leaf of the page. -/
def readTables (s : State) (c : Context0) (va : Nat) : State :=
  if !(bit c.xroot 0) then s else (walkReads s c va 3 1 (field c.xroot 16 28)).foldl (readEntry c) s

/-- The translation cache with room for an entry in its set of 8 (R221): the oldest of a full set goes. [log 15: DEDUCED] -/
def tlbRoom (l : List TlbEntry) (base : Nat) : List TlbEntry :=
  if l.length < 8 then l
  else
    let same := l.filter fun t => decide (Config.tlbSet t.base % 128 = Config.tlbSet base % 128)
    match same with
    | t :: _ => if same.length < 8 then l else l.erase t
    | [] => l

/-- Two entries of the translation cache are the same. -/
def sameEntry (a b : TlbEntry) : Bool :=
  decide (a.part.toNat = b.part.toNat) && decide (a.base = b.base) && (a.big == b.big) && decide (a.leaf.toNat = b.leaf.toNat)

/-- Enter a leaf into the translation cache (R221). [log 15: DEDUCED] -/
def cacheLeaf (s : State) (c : Context0) (va : Nat) (l : Leaf) : State :=
  let t : TlbEntry := { part := c.part, base := pageBase l va, big := l.big, leaf := l.word }
  if s.mem.tlb.any (sameEntry t) then s
  else
    let w := readTables s c va
    { w with mem := { w.mem with tlb := tlbRoom w.mem.tlb t.base ++ [t] } }

/-- Translate: each access uses what a walk finds now or a leaf that the cache still holds, by a free
choice (R221). [log 15: DEDUCED] -/
def translate (s : State) (c : Context0) (va : Nat) : State × Except (Nat × Nat) Leaf :=
  let now := walk s c va
  let old := cachedLeaves s c va now
  let d := if old.isEmpty then (0, s) else draw s (old.length + 1)
  if d.1 = 0 then
    match now with
    | .ok l =>
      let t := cacheLeaf d.2 c va l
      (if t.mem.tlb = d.2.mem.tlb then t else countEvent t 6 1, now)
    | .error _ => (countEvent (readTables d.2 c va) 6 1, now)
  else
    match old.drop (d.1 - 1) with
    | l :: _ => (d.2, .ok l)
    | [] => (d.2, now)

/-- XFSTAT after a failed walk (R219). -/
def xfstatWord (r : Nat × Nat) : Word := at_ 4 r.1 ||| at_ 2 r.2

/-- The attributes that R90 compares. -/
def attributes (l : Leaf) : Word := l.word &&& (at_ 44 (2 ^ 20 - 1) ||| at_ 10 7 ||| at_ 2 15)

/-- What an access needs of a page: read, write, both, or execute. -/
inductive Need where
  | read
  | write
  | both
  | exec
  | none
  deriving DecidableEq, Repr

/-- A leaf permits an access (R220). -/
def permits (l : Leaf) (part : BitVec 6) (user : Bool) (need : Need) : Bool :=
  let rwx := match need with
    | .read => bit l.word 2
    | .write => bit l.word 3
    | .both => bit l.word 2 && bit l.word 3
    | .exec => bit l.word 4
    | .none => true
  rwx && (!user || bit l.word 5) && decide (field l.word 50 6 = part.toNat)

/-- A line of a leaf's frame. -/
def leafLine (l : Leaf) (pa : Nat) : LineId := { dev := BitVec.ofNat 8 (field l.word 56 8), line := BitVec.ofNat 37 (pa / 128) }

/-- The key id of a page. -/
def leafKey (l : Leaf) : BitVec 6 := BitVec.ofNat 6 (field l.word 44 6)

/-- The cacheability of a page (R217). -/
def leafCache (l : Leaf) : Nat := field l.word 10 2

end Sys2Proof.Machine
end

