-- ==== Sys2Proof/Machine/Access.lean ====
section
/-! DEFINITION. Plain loads and stores of the running processor: the checks of R87 to R92 in order,
race detection and grants (R232 to R237), poison (R223), and the windows of a switch kernel (R422)
and of a queue program (R441). -/

namespace Sys2Proof.Machine

/-- A part of an access that lies within one line: its address, its length, its page when it is
global, and the local key or the physical address. -/
structure Piece where
  va : Nat
  n : Nat
  leaf : Option Leaf
  key : Nat
  deriving DecidableEq, Repr

/-- Whether an access stores, and the causes of its rows. -/
inductive Kind where
  | load
  | store
  deriving DecidableEq, Repr

/-- What a plain access needs of its pages. -/
def Kind.need : Kind → Need
  | .load => .read
  | .store => .write

/-- Rows 1 to 4 of R87 with R206: the causes that need no translation. -/
def earlyCause (s : State) (k : Kind) (user : Bool) (a n : Nat) : Option (BitVec 8) :=
  let e := a + n - 1
  if 2 ^ 55 ≤ e then some causeAddr
  else if a < 2 ^ 32 && decide (0x500000 ≤ e) then some causeAccess
  else if a < 0x500000 && (List.range n).any fun i => inStash s (localKey s (a + i)) 1 then some causeAccess
  else if k = .store && a < 0x500000 && (List.range n).any fun i => windowForbids user (localKey s (a + i)) then some causeAccess
  else if region a ≠ region e then some causeAlignattr
  else none

/-- One page of an access: its translation, or the XLATE trap at `at_` (R219). -/
def pageOf (s : State) (a val : Nat) : Acc Leaf :=
  match translate s (ownContext s) a with
  | (s', .ok l) => .ok s' l
  | (s', .error r) => .trap { s' with cpu := { s'.cpu with xfstat := xfstatWord r } } causeXlate (word val)

/-- Rows 1 to 8 of R87: the pieces of an access of `n` bytes at `a`. -/
def resolve (s : State) (k : Kind) (user : Bool) (a n : Nat) : Acc (List Piece) :=
  match earlyCause s k user a n with
  | some c => .trap s c (word a)
  | none =>
    let m := if a % 128 + n ≤ 128 then n else 128 - a % 128
    if a < 0x500000 then
      .ok s ({ va := a, n := m, leaf := none, key := localKey s a }
        :: (if m = n then [] else [{ va := a + m, n := n - m, leaf := none, key := localKey s (a + m) }]))
    else
      (pageOf s a a).bind fun s l =>
        let lower : Piece := { va := a, n := m, leaf := some l, key := leafPa l a }
        let crosses := decide (m ≠ n) && decide ((a + m) % 65536 = 0)
        let second := if crosses then pageOf s (a + m) (a + m) else .ok s l
        second.bind fun s l2 =>
          if attributes l ≠ attributes l2 then .trap s causeAlignattr (word a)
          else if !permits l (partOf s) user k.need then .trap s causePerm (word a)
          else if !permits l2 (partOf s) user k.need then .trap s causePerm (word (a + m))
          else
            .ok s (lower :: (if m = n then [] else [{ va := a + m, n := n - m, leaf := some l2, key := leafPa l2 (a + m) }]))

/-- The words of its line that a piece covers. -/
def coveredWords (p : Piece) : BitVec 16 :=
  maskOf 16 ((List.range 16).filter fun w => decide (p.key % 128 < 8 * w + 8) && decide (8 * w < p.key % 128 + p.n))

/-- The first byte address of a piece that lies in a word of its line. -/
def firstByteIn (p : Piece) (w : Nat) : Nat :=
  if 8 * w ≤ p.key % 128 then p.va else p.va + (8 * w - p.key % 128)

/-- The line of a global piece. -/
def pieceLine (p : Piece) : LineId :=
  match p.leaf with
  | some l => leafLine l p.key
  | none => { dev := 0, line := 0 }

/-- RACEINFO (R235). -/
def raceWord (isStore : Bool) (holder : BitVec 18) : Word := at_ 32 (bnat isStore) ||| zextField holder

/-- A RACE trap on a word of a piece (R234, R235). -/
def raceTrap {α : Type} (s : State) (isStore : Bool) (p : Piece) (w : Nat) (holder : BitVec 18) : Acc α :=
  .trap { s with cpu := { s.cpu with raceinfo := raceWord isStore holder } } causeRace (word (firstByteIn p w))

/-- Marks on covered words that another core holds (R233): words the core holds itself conflict with
nothing. -/
def conflicts (s : State) (p : Piece) (marks : List Mark) : List Mark :=
  let own := (grantOf s (pieceLine p)).words
  marks.filter fun m => bit (coveredWords p &&& ~~~ own) m.word && decide (m.holder ≠ s.cpu.coreId)

/-- The mark with the lowest word. -/
def lowestMark (l : List Mark) : Option Mark :=
  l.foldl (fun b m => match b with
    | none => some m
    | some x => if m.word < x.word then some m else b) none

/-- Reach the line of a global piece and check it for held words: a word that another core holds
traps RACE, a release-held word makes the load wait (R233, R257). -/
def viewPiece (s : State) (p : Piece) : Acc LineView :=
  match p.leaf with
  | none => .ok s { data := [], poison := 0, marks := [] }
  | some l =>
    (reachLine s (pieceLine p) (leafKey l) (leafCache l) (coveredWords p)).bind fun s v =>
      let hit := conflicts s p v.marks
      match lowestMark (hit.filter fun m => !m.release) with
      | some m => raceTrap s false p m.word m.holder
      | none => if hit.isEmpty then .ok s v else .stall (dropUsed s)

/-- Buffered words of a line whose other bytes came poisoned (R223). -/
def bufferedPoison (s : State) (ln : LineId) : BitVec 16 :=
  ((s.mem.buffer.find? fun b => sameLine b.line ln).map (·.poison)).getD 0

/-- A load of a piece consumes poison (row 9 of R87). -/
def piecePoisoned (s : State) (p : Piece) (v : LineView) : Bool :=
  match p.leaf with
  | none => localPoison s p.key p.n
  | some _ => decide (coveredWords p &&& mergePoison v.poison (bufferedPoison s (pieceLine p)) (wholeWords s (pieceLine p)) ≠ 0)

/-- The bytes of a piece in the core's own view (R92, R213). -/
def pieceBytes (s : State) (p : Piece) (v : LineView) : List Byte :=
  match p.leaf with
  | none => seenLocals s p.key p.n
  | some _ =>
    (List.range p.n).map fun i =>
      let off := p.key % 128 + i
      (bufferedByte s (pieceLine p) off).getD (v.data.get off)

/-- Views of all pieces, the lower first (R234). -/
def viewPieces (s : State) : List Piece → Acc (List LineView)
  | [] => .ok s []
  | p :: ps => (viewPiece s p).bind fun s v => (viewPieces s ps).map fun vs => v :: vs

/-- Load `n` bytes at a virtual address as the core (R86, R87). -/
def coreLoad (s : State) (user : Bool) (a n : Nat) : Acc (List Byte) :=
  if isFenced s 0 then .stall (waitFenced s 0)
  else
    (resolve s .load user a n).bind fun s ps =>
      (viewPieces s ps).bind fun s vs =>
        match (ps.zip vs).find? fun x => piecePoisoned s x.1 x.2 with
        | some x => .trap s causePoison (word x.1.va)
        | none => .ok s ((ps.zip vs).flatMap fun x => pieceBytes s x.1 x.2)

/-! ## Stores -/

/-- Words granted in a home line are marked in the copies of other holders (R232): those of this device mark theirs, a
NOTICE goes to each other die, and the grant awaits every acknowledgement. [log 50: DESIGN CHOICE] -/
def markHolders (s : State) (line : BitVec 37) (q : GrantRequest) (hs : List Sharer) : State :=
  let s := awaitAcks s (invalidationAcks s (homeLine s line) hs 6 systemScope false [])
  hs.foldl (fun s h => match h with
    | .peer d => if reachable s (d.toNat / 4) then inject s (homePacket s line d q.part 5 4 (noticeBytes { q with mark := true })) [] else s
    | .stash _ => s) s

/-- Marks of words granted to the core in a home line go to the other copies (R232). -/
def markOthers (s : State) (ln : LineId) (words : BitVec 16) (release : Bool) : State :=
  markHolders s ln.line { core := s.cpu.coreId, words := words, release := release, part := partOf s } ((holdersOf s ln.line).filter fun h => !(keepsOwn s h))

/-- The acknowledgements of a grant's marks have not all returned (R232). -/
def marksPending (s : State) (ln : LineId) : Bool := s.cpu.acks.any fun a => decide (a.line = ln) && decide (a.cls = 6)

/-- Obtain the words of a piece for the core's own slot (R232, R236). -/
def obtain_ (s : State) (p : Piece) (strel : Bool) : Acc Unit :=
  match p.leaf with
  | none => .ok s ()
  | some _ =>
    let ln := pieceLine p
    let g := grantOf s ln
    let need := coveredWords p
    let missing := need &&& ~~~ g.words
    let take := { g with logged := g.logged || (p.leaf.any fun l => bit l.word 12), words := g.words ||| need, release := if strel then g.release ||| missing else g.release &&& ~~~ need }
    if isPublishing s ln || marksPending s ln then .stall s
    else if missing = 0 then .ok (setGrant s take) ()
    else if isHeld s then .stall s
    else if isHome s ln then
      let d := dirOf s ln.line
      match lowestMark ((homeMarks s ln.line).filter fun m => bit missing m.word) with
      | some m => raceTrap s true p m.word m.holder
      | none =>
        if decide (2 ≤ d.writers.length) && decide (g.words = 0) then .stall (publish s)
        else
          match l2Reach s (homeDie ln.line) ln (p.leaf.any fun l => decide (leafCache l = 2)) with
          | none => .stall (publish s)
          | some s =>
            let s := markOthers (setGrant s take) ln missing strel
            if marksPending s ln then .stall s else .ok s ()
    else
      match s.mem.refusals.find? fun r => decide (r.1 = ln) && bit missing r.2.1 with
      | some r =>
        let s := { s with mem := { s.mem with refusals := s.mem.refusals.filter fun r => decide (r.1 ≠ ln) } }
        raceTrap s true p r.2.1 r.2.2
      | none =>
        if reachable s ln.dev.toNat then
          .stall (requestLine s ln .grant ((p.leaf.map leafKey).getD 0) (partOf s) strel (noticeBytes { core := s.cpu.coreId, words := missing, release := strel }))
        else .ok (setGrant (lostRequest s ln 5 (noticeBytes { core := s.cpu.coreId, words := missing, release := strel })) take) ()

/-- Obtain the words of all pieces before any byte is written (R237): a request to another device does not
hold back those that follow it (R232), and a wait of R236 ends the attempt. A later refusal is reported once the earlier
answers have come, which may refuse the earlier words. -/
def obtainAll (s : State) (strel : Bool) : List Piece → Acc Unit
  | [] => .ok s ()
  | p :: ps =>
    match obtain_ s p strel with
    | .ok s _ => obtainAll s strel ps
    | .trap s c v => .trap s c v
    | .stall t =>
      if (s.mem.requested.length < t.mem.requested.length) && !ps.isEmpty then
        match obtainAll t strel ps with
        | .stall s => .stall s
        | .ok s _ => .stall s
        | .trap _ _ _ => .stall t
      else .stall t

/-- A store of this page goes to the home slice and not to the stash (R204, R213, R379). -/
def isDirect (s : State) (l : Leaf) (ln : LineId) : Bool :=
  decide (leafCache l ≠ 0) || !hasStash s || (isHome s ln && isWatched s ln.line)

/-- Lines of pieces that the store buffer does not hold yet. -/
def newLines (s : State) (ps : List Piece) : List LineId :=
  ((ps.filter fun p => p.leaf.isSome).map pieceLine).eraseDups.filter fun ln => !(s.mem.buffer.any fun b => sameLine b.line ln)

/-- Words of a line of another device that a piece writes in part, and of which the buffer does not hold the
other bytes: they come with the line, since a WB packet carries whole words (R213, R400). [log 18: DEDUCED] -/
def partialWords (s : State) (p : Piece) : BitVec 16 :=
  if p.leaf.isNone || isHome s (pieceLine p) then 0
  else
    let fresh := (List.range p.n).map fun i => (p.key % 128 + i, (0 : Byte))
    let held := ((s.mem.buffer.find? fun b => sameLine b.line (pieceLine p)).map (·.bytes)).getD []
    coveredWords p &&& ~~~ wholeIn (fresh ++ held)

/-- The poison of the copy from which the other bytes of a partly written word of another device's line come. -/
def basePoison (s : State) (ln : LineId) : Option (BitVec 16) :=
  match stashLine s ln with
  | some l => some l.poison
  | none => (((peerLine s ln).orElse fun _ => heldLine s ln .core)).map fun p => p.poison

/-- The lines of other devices that a store of pieces needs at hand (R213, R398): for the other bytes of its
words, or to drain within the instruction when it enters more lines than the buffer holds. -/
def missingBase (s : State) (ps : List Piece) : Option (Piece × Leaf) :=
  let many := decide (16 < (newLines s ps).length) && hasStash s
  ps.findSome? fun p =>
    match p.leaf with
    | some l =>
      let ln := pieceLine p
      if (decide (partialWords s p ≠ 0) || (many && !isHome s ln && decide (leafCache l = 0))) && (basePoison s ln).isNone && reachable s ln.dev.toNat then some (p, l) else none
    | none => none

/-- What the core holds of the lines of pieces under other key ids goes home before they are accessed under theirs
(R212). -/
def rekeyPieces (s : State) (ps : List Piece) : State :=
  ps.foldl (fun s p => match p.leaf with
    | some l => dropOtherKey s (pieceLine p) (leafKey l)
    | none => s) s

/-- Write the bytes of a piece: local memory at once, a global line through the store buffer
(R213). -/
def writePiece (s : State) (p : Piece) (bs : List Byte) : State :=
  match p.leaf with
  | none => putLocal s p.key bs
  | some l =>
    let ln := pieceLine p
    let fresh := (List.range p.n).map fun i => (p.key % 128 + i, bs.getD i 0)
    let get := fun a => ownByte s ln (leafKey l) (a % 128)
    let olds := (oldHalves get p.key p.n).map fun o => (codeKey ln.dev.toNat o.1, o.2)
    let g := grantOf s ln
    let part := partialWords s p
    let base := (basePoison s ln).getD 0xFFFF
    let rest := (bytesOf part (ownByte s ln (leafKey l))).filter fun x => !((fresh.map (·.1)).contains x.1)
    let merge := fun (b : Buffered) =>
      if sameLine b.line ln then
        let held := b.bytes.filter fun q => !((fresh.map (·.1)).contains q.1)
        { b with bytes := fresh ++ held ++ rest.filter (fun q => !((held.map (·.1)).contains q.1)), poison := mergePoison b.poison (part &&& base) (wholeIn fresh), whole := b.whole ||| wholeIn fresh }
      else b
    let buffer :=
      if s.mem.buffer.any fun b => sameLine b.line ln then s.mem.buffer.map merge
      else s.mem.buffer ++ [{ line := ln, bytes := fresh ++ rest, direct := isDirect s l ln, key := leafKey l, poison := part &&& base, whole := wholeIn fresh }]
    let s := { s with
      mem := { s.mem with buffer := buffer }
      cpu := { s.cpu with stale := olds ++ s.cpu.stale } }
    setGrant s { g with written := g.written ||| coveredWords p }

/-- Split bytes over pieces and write them. Both pieces of a line-split access are made in the
one step, so no other agent observes one without the other (R89). [log 83: DESIGN CHOICE] -/
def writePieces (s : State) : List Piece → List Byte → State
  | [], _ => s
  | p :: ps, bs => writePieces (writePiece s p (bs.take p.n)) ps (bs.drop p.n)

/-- The store buffer has no room for a store of pieces yet (R213): it has 16 entries. A vector store that
enters more lines begins when it is empty. -/
def bufferFull (s : State) (ps : List Piece) : Bool :=
  decide (16 < s.mem.buffer.length + (newLines s ps).length) && !s.mem.buffer.isEmpty

/-- The oldest entries drain until the buffer holds 16 (R213): the elements of a vector store enter one after
another, and those that find it full wait for a drain within the instruction. -/
def drainTo (n : Nat) : Nat → State → State
  | 0, s => s
  | k + 1, s =>
    if s.mem.buffer.length ≤ n then s
    else match s.mem.buffer with
      | b :: _ => drainTo n k (drainEntry s b)
      | [] => s

/-- The lines that partly written words need, then space in the store buffer (R13, R213). -/
def readyPieces (s : State) (ps : List Piece) : Acc Unit :=
  match missingBase s ps with
  | some (p, l) => .stall (requestLine s (pieceLine p) (.line (if leafCache l = 0 then .copy else .core)) (leafKey l) (partOf s) false [])
  | none => if bufferFull s ps then .stall s else .ok s ()

/-- Write pieces that are resolved: grants first, then the lines that partial words need, then buffer space,
then every byte (R237). -/
def storePieces (s : State) (ps : List Piece) (bs : List Byte) : Acc Unit :=
  (obtainAll s false ps).bind fun s _ =>
    (readyPieces (rekeyPieces s ps) ps).bind fun s _ => .ok (drainTo 16 64 (writePieces s ps bs)) ()

/-- Store bytes at a virtual address as the core (R86, R87). -/
def coreStore (s : State) (user : Bool) (a : Nat) (bs : List Byte) : Acc Unit :=
  if isFenced s 0 then .stall (waitFenced s 0)
  else (resolve s .store user a bs.length).bind fun s ps => storePieces s ps bs

/-! ## The windows of the bounded profile -/

/-- The flow record of an invocation. -/
def recordOf (s : State) (i : Invocation) : Option FlowRecord :=
  s.fab.records.find? fun r => decide (r.key = { part := i.cls.part, cls := i.cls.cls, fid := i.fid })

/-- A load of a switch kernel (R422). -/
def kernelLoad (s : State) (i : Invocation) (a n : Nat) : Acc (List Byte) :=
  let bytes := fun (t : Table Byte) (b : Nat) => (List.range n).map fun j => t.get (a - b + j)
  let bad := fun (t : Table Bool) (b : Nat) => (List.range n).any fun j => t.get ((a - b + j) / 8)
  if a + n ≤ 0x1000 then .ok s (bytes i.window 0)
  else if 0x10000 ≤ a && decide (a + n ≤ 0x10000 + 64 * i.cls.recs) then
    match recordOf s i with
    | some r => if bad r.poison 0x10000 then .trap s causePoison (word a) else .ok s (bytes r.data 0x10000)
    | none => .ok s (bytes [] 0x10000)
  else if 0x20000 ≤ a && decide (a + n ≤ 0x21000) then .ok s (bytes i.scratch 0x20000)
  else if 0x30000 ≤ a && decide (a + n ≤ 0x30000 + i.cls.tablen) then
    if bad i.cls.tablePoison 0x30000 then .trap s causePoison (word a) else .ok s (bytes i.cls.table 0x30000)
  else .trap s causeAccess (word a)

/-- Replace the invocation of a Sedge processor. -/
def setSedge (s : State) (n : Nat) (i : Option Invocation) : State :=
  { s with fab := { s.fab with sedge := s.fab.sedge.set n i } }

/-- A store of a switch kernel (R422): the packet below LEN, the record and the scratch are
writable. -/
def kernelStore (s : State) (p : Nat) (i : Invocation) (a : Nat) (bs : List Byte) : Acc Unit :=
  let n := bs.length
  if a + n ≤ 0x1000 && decide (a + n ≤ i.len) then .ok (setSedge s p (some { i with window := putBytes i.window a bs })) ()
  else if 0x10000 ≤ a && decide (a + n ≤ 0x10000 + 64 * i.cls.recs) then
    let key : FlowKey := { part := i.cls.part, cls := i.cls.cls, fid := i.fid }
    let put := fun (r : FlowRecord) =>
      if r.key = key then
        { r with data := putBytes r.data (a - 0x10000) bs, poison := clearPoison r.poison (a - 0x10000) n }
      else r
    .ok { s with fab := { s.fab with records := s.fab.records.map put } } ()
  else if 0x20000 ≤ a && decide (a + n ≤ 0x21000) then
    .ok (setSedge s p (some { i with scratch := putBytes i.scratch (a - 0x20000) bs })) ()
  else .trap s causeAccess (word a)

/-- A load of a queue program (R441). -/
def queueLoad (s : State) (r : QpRun) (a n : Nat) : Acc (List Byte) :=
  if a + n ≤ 0x40 then .ok s ((r.command.drop a).take n)
  else if 0x10000 ≤ a && decide (a + n ≤ 0x11000) then
    match s.cfe.queues.get r.queue with
    | some q => .ok s ((List.range n).map fun j => q.memory.get (a - 0x10000 + j))
    | none => .trap s causeAccess (word a)
  else if 0x20000 ≤ a && decide (a + n ≤ 0x21000) then
    .ok s ((List.range n).map fun j => r.scratch.get (a - 0x20000 + j))
  else .trap s causeAccess (word a)

/-- Replace the run of an execution slot. -/
def setSlot (s : State) (n : Nat) (r : Option QpRun) : State :=
  { s with cfe := { s.cfe with slots := s.cfe.slots.set n r } }

/-- A store of a queue program (R441): the command is read-only. -/
def queueStore (s : State) (p : Nat) (r : QpRun) (a : Nat) (bs : List Byte) : Acc Unit :=
  let n := bs.length
  if 0x10000 ≤ a && decide (a + n ≤ 0x11000) then
    match s.cfe.queues.get r.queue with
    | some q => .ok { s with cfe := { s.cfe with queues := s.cfe.queues.set r.queue (some { q with memory := putBytes q.memory (a - 0x10000) bs }) } } ()
    | none => .trap s causeAccess (word a)
  else if 0x20000 ≤ a && decide (a + n ≤ 0x21000) then
    .ok (setSlot s p (some { r with scratch := putBytes r.scratch (a - 0x20000) bs })) ()
  else .trap s causeAccess (word a)

/-- mem(a, n) read by the running processor (R73). -/
def load (s : State) (a : Word) (n : Nat) : Acc (List Byte) :=
  match s.own.turn with
  | .core => coreLoad s (isUser s) a.toNat n
  | .sedge p =>
    match s.fab.sedge.get p with
    | some i => kernelLoad s i a.toNat n
    | none => .stall s
  | .cfe p =>
    match s.cfe.slots.get p with
    | some r => queueLoad s r a.toNat n
    | none => .stall s

/-- mem(a, n) written by the running processor. -/
def store (s : State) (a : Word) (bs : List Byte) : Acc Unit :=
  match s.own.turn with
  | .core => coreStore s (isUser s) a.toNat bs
  | .sedge p =>
    match s.fab.sedge.get p with
    | some i => kernelStore s p i a.toNat bs
    | none => .stall s
  | .cfe p =>
    match s.cfe.slots.get p with
    | some r => queueStore s p r a.toNat bs
    | none => .stall s

end Sys2Proof.Machine
end

