-- ==== Sys2Proof/Machine/Ops.lean ====
section
/-! DEFINITION. The named operations that instructions share: counters and run lists, the inbox,
messages, engine accesses, fault messages and parking, debug halts, taking a trap, and the return
from one (R138 to R157, R345 to R356, R372). -/

namespace Sys2Proof.Machine

/-! ## Dependence counters (R150 to R152) -/

/-- The local address of the counter page; 0 without one (R150). -/
def pageOfCounters (s : State) : Nat := field s.cpu.dcbase 13 7 * 0x2000

/-- The local address of counter n. -/
def counterAddr (s : State) (n : Nat) : Nat := pageOfCounters s + 2 * n

/-- The local address of descriptor n. -/
def descriptorAddr (s : State) (n : Nat) : Nat := pageOfCounters s + 0x2000 + 16 * n

/-- Counter n. -/
def counter (s : State) (n : Nat) : Nat := ofBytes (getLocals s (ownKey s (counterAddr s n)) 2)

/-- Write counter n. -/
def putCounter (s : State) (n v : Nat) : State := putLocal s (ownKey s (counterAddr s n)) (toBytes 2 v)

/-- Word 0 or 1 of descriptor n. -/
def descriptor (s : State) (n i : Nat) : Word := ownDword s (descriptorAddr s n + 8 * i)

/-- Write word 0 or 1 of descriptor n. -/
def putDescriptor (s : State) (n i : Nat) (v : Word) : State := putOwnDword s (descriptorAddr s n + 8 * i) v

/-- Append an entry to the queue of a level (R141). -/
def appendEntry (s : State) (lvl : Nat) (e : Entry) : State :=
  { s with cpu := { s.cpu with queues := s.cpu.queues.set lvl (s.cpu.queues.get lvl ++ [e]) } }

/-- INBOX.DCLOST := 1 (R142). -/
def loseDecrement (s : State) : State := { s with cpu := { s.cpu with dcLost := true } }

/-- Release of counter n with a byte count (R152): its level is read now; a level of 20 to 23 needs
SUP, and five payload words in a stash region release nothing (R206). -/
def releaseCounter (s : State) (n : Nat) (bytes : Nat) : State :=
  let w0 := descriptor s n 0
  let w1 := descriptor s n 1
  let lvl := field w0 48 5
  if 23 < lvl || (decide (20 ≤ lvl) && !bit w0 62) || inStash s (ownKey s (field w1 0 20)) 40 then loseDecrement s
  else appendEntry s lvl (.release (BitVec.ofNat 12 n) (BitVec.ofNat 16 (field w1 48 16)) (BitVec.ofNat 32 bytes) s.cpu.time)

/-- One decrement of counter n with status and byte count (R151). Whatever brings it
about, it is discarded when DCBASE names no page (R170). [log 87: DESIGN CHOICE] -/
def decrement (s : State) (n : Nat) (status : BitVec 16) (bytes : Nat) : State :=
  if pageOfCounters s = 0 then loseDecrement s
  else
    let w0 := descriptor s n 0
    let c := counter s n
    if !bit w0 63 || decide (c = 0) then loseDecrement s
    else
      let w1 := descriptor s n 1
      let s := if status ≠ 0 && decide (field w1 48 16 = 0) then putDescriptor s n 1 (withField w1 48 16 status.toNat) else s
      let s := putCounter s n (c - 1)
      if c = 1 then releaseCounter (putDescriptor s n 0 (withField w0 63 1 0)) n bytes else s

/-! ## Tag arms (R171) -/

/-- An arm's condition holds. -/
def armHolds (tags : Word) (a : Arm) : Bool :=
  if a.all then decide (tags &&& a.mask = a.mask) else decide (tags &&& a.mask ≠ 0)

/-- The end of a cycle: filled slots whose condition holds fire, by increasing number (R171, R173). -/
def fireArms (s : State) : State :=
  (List.range 8).foldl (fun s i =>
    match s.cpu.arms.get i with
    | some a =>
      if armHolds s.cpu.tags a then
        decrement { s with cpu := { s.cpu with arms := s.cpu.arms.set i none } } a.n.toNat 0 0
      else s
    | none => s) s

/-! ## The inbox and messages (R138 to R142, R153) -/

/-- Messages in the inbox that use a reserved slot, or a general one. -/
def usedSlots (s : State) (reserved : Bool) : Nat :=
  s.cpu.queues.foldl (fun n q => n + (q.2.filter fun e =>
    match e with
    | .message _ r _ => r == reserved
    | .release _ _ _ _ => false).length) 0

/-- FREE: free general slots (R142). -/
def freeGeneral (s : State) : Nat := 56 - usedSlots s false

/-- RFREE: free reserved slots (R142). -/
def freeReserved (s : State) : Nat := 8 - usedSlots s true

/-- LEVEL of a header word (R138). -/
def hdrLevel (h : Word) : Nat := field h 48 5

/-- A message that may take a reserved slot: RELEASE, BOUNCE or FAULT (R140). -/
def isFlagged (h : Word) : Bool := bit h 53 || bit h 54 || bit h 55

/-- Place a message in the inbox, or let it wait at the port (R139, R140). LOGGED is set while the mode of
the Peat log is record or replay. [log 85: DESIGN CHOICE] -/
def placeMessage (s : State) (m : Message) (own : Bool) : State :=
  if 23 < hdrLevel m.hdr0 then { s with cpu := { s.cpu with badMsg := true } }
  else
    let m := if field s.cpu.peatcfg 0 2 ≠ 0 then { m with hdr0 := m.hdr0 ||| at_ 58 1 } else m
    if isFlagged m.hdr0 && decide (0 < freeReserved s) then appendEntry s (hdrLevel m.hdr0) (.message m true s.cpu.time)
    else if 0 < freeGeneral s then appendEntry s (hdrLevel m.hdr0) (.message m false s.cpu.time)
    else { s with cpu := { s.cpu with port := s.cpu.port ++ [{ m := m, own := own }] } }

/-- A packet that carries a message of this device (R399, R400). -/
def messagePacket (s : State) (target : BitVec 18) (m : Message) (vc : Nat) (port : BitVec 10) (part : BitVec 6) (spawn : Bool) : Packet :=
  { ddev := BitVec.ofNat 8 (idDev target), dport := corePort target, sport := port, part := part, vc := BitVec.ofNat 3 vc,
    kind := 1, sdev := BitVec.ofNat 8 (ownDev s), flow := 0, pa := 0, body := messageBytes m, spawn := spawn }

/-- A fault message of the core, or a release message of its engines, which is no entry of q3 (R13, R394): into the own
inbox, or out as a packet. -/
def sendMessage (s : State) (target : BitVec 18) (m : Message) : State :=
  let p := messagePacket s target m (field m.hdr0 56 2) (corePort s.cpu.coreId) (partOf s) false
  if target = s.cpu.coreId && decide (classify s p = 0) then placeMessage s m false else sendPacket s p []

/-- Header word 1 that the sending hardware fills (R139): SENDTIME and SENDER. -/
def hdr1Of (s : State) (sender : BitVec 18) : Word := at_ 32 (field s.cpu.time 0 32) ||| zextField sender

/-! ## Engine accesses (R239, R272, R282, R332) -/

/-- A byte of memory as an engine addresses it. -/
inductive Dest where
  | loc (key : Nat)
  | glob (leaf : Leaf) (pa : Nat)
  deriving DecidableEq, Repr

/-- Why an engine access fails: the code of R318, and XFSTAT after a failed walk. -/
structure EngineFail where
  code : Nat
  xfstat : Option Word
  deriving DecidableEq, Repr

/-- The context in which an engine operation of a partition translates. -/
def engineContext (s : State) (part : BitVec 6) : Context0 := { part := part, xroot := s.cpu.xroot, keymask := s.cpu.keymask }

/-- Resolve one byte address for an engine operation of a partition and mode. The draw `d` chooses
between a fresh walk and a cached leaf (R221). -/
def engineDest (s : State) (d : Nat) (part : BitVec 6) (sup : Bool) (need : Need) (a : Nat) : Except EngineFail Dest :=
  if 2 ^ 55 ≤ a then .error { code := 4, xfstat := none }
  else if region a = 6 then .error { code := 5, xfstat := none }
  else if a < 0x500000 then
    let key := localKey s a
    if inStash s key 1 || (decide (need = .write) && windowForbids (!sup) key) then .error { code := 5, xfstat := none }
    else .ok (.loc key)
  else
    let c := engineContext s part
    let now := walk s c a
    let old := cachedLeaves s c a now
    let i := pick (Config.choiceAt d a) (old.length + 1)
    match (if i = 0 then now else match old.drop (i - 1) with
      | l :: _ => .ok l
      | [] => now) with
    | .error r => .error { code := 2, xfstat := some (xfstatWord r) }
    | .ok l => if permits l part (!sup) need then .ok (.glob l (leafPa l a)) else .error { code := 3, xfstat := none }

/-- The walks of an engine operation's addresses: their leaves enter the cluster's translation cache, and
comparators see their reads (R221, R380). -/
def engineTouch (s : State) (part : BitVec 6) (as : List Nat) : State :=
  let pages := ((as.filter fun a => decide (2 ^ 32 ≤ a) && decide (a < 2 ^ 55)).map (· / 65536)).eraseDups
  pages.foldl (fun s p =>
    match walk s (engineContext s part) (p * 65536) with
    | .ok l => cacheLeaf s (engineContext s part) (p * 65536) l
    | .error _ => readTables s (engineContext s part) (p * 65536)) s

/-- The word of a global byte is held by a core, this one included (R239): of a line of another device, as the
line that came for the engine marks it. -/
def isHeldWord (s : State) (ln : LineId) (w : Nat) : Bool :=
  bit (grantOf s ln).words w
    || (if isHome s ln then (dirOf s ln.line).writers.any fun x => bit x.words w
        else (onceLine s ln).any fun p => p.marks.any fun m => decide (m.word = w))

/-- The word that a place lies in is held. -/
def isHeldPlace (s : State) (x : Dest) : Bool :=
  match x with
  | .loc _ => false
  | .glob l pa => isHeldWord s (leafLine l pa) (pa / 8 % 16)

/-- What an engine reads at a byte: the value, poison, and a held word (R239). -/
structure EngineByte where
  val : Byte
  poison : Bool
  held : Bool

/-- An engine reads one byte: the home value of a global byte, or a fetched line of another device. -/
def engineByte (s : State) (x : Dest) : EngineByte :=
  match x with
  | .loc key => { val := getLocal s key, poison := s.mem.lpoison.get (key / 8), held := false }
  | .glob l pa =>
    let ln := leafLine l pa
    if isHome s ln then { val := homeByte s (leafKey l) pa, poison := homePoisoned s pa, held := isHeldPlace s x }
    else match onceLine s ln with
      | some p => { val := p.data.get (pa % 128), poison := bit p.poison (pa / 8 % 16), held := isHeldPlace s x }
      | none => { val := 0, poison := true, held := isHeldPlace s x }

/-- A line of another device that an engine reaches: with the key id of its page and the requester's partition, which
the request for it carries (R212, R399). -/
structure FarLine where
  line : LineId
  key : BitVec 6
  part : BitVec 6
  deriving DecidableEq, Repr

/-- The lines of other devices that places lie in. -/
def remoteLines (s : State) (xs : List Dest) : List FarLine :=
  (xs.filterMap fun x => match x with
    | .loc _ => none
    | .glob l pa =>
      if isHome s (leafLine l pa) then none else some { line := leafLine l pa, key := leafKey l, part := BitVec.ofNat 6 (field l.word 50 6) : FarLine }).eraseDups

/-- Lines of other devices that an engine operation reads or writes and that are not at hand: a write takes from
them the other bytes of its words, and learns which words are held. -/
def missingLines (s : State) (xs : List Dest) : List FarLine :=
  (remoteLines s xs).filter fun f => (onceLine s f.line).isNone && reachable s f.line.dev.toNat

/-- Ask for the lines of other devices that an engine operation waits for (R204, R209). -/
def requestOnce (s : State) (lines : List FarLine) : State :=
  lines.foldl (fun s f => requestLine s f.line (.line .engine) f.key f.part false []) s

/-- Lines that came for an engine's access have been used. -/
def dropLines (s : State) (lines : List FarLine) : State := lines.foldl (fun s f => dropOnce s f.line) s

/-- An engine writes one byte of local memory or of a home line; a held word is not written (R239). -/
def engineWriteByte (s : State) (x : Dest) (b : Byte) : State :=
  match x with
  | .loc key => putLocal s key [b]
  | .glob l pa => if isHeldPlace s x || !isHome s (leafLine l pa) then s else putHome s (leafKey l) pa [b]

/-- The owner partition of places on a page with LOGGED = 1 (R217). -/
def loggedPart (xs : List Dest) : Option (BitVec 6) :=
  xs.findSome? fun x => match x with
    | .loc _ => none
    | .glob l _ => if bit l.word 12 then some (BitVec.ofNat 6 (field l.word 50 6)) else none

/-- The owner partition of global places (R217). -/
def placesOwner (xs : List Dest) : Option (BitVec 6) :=
  xs.findSome? fun x => match x with
    | .loc _ => none
    | .glob l _ => some (BitVec.ofNat 6 (field l.word 50 6))

/-- The requester of an engine access in a slice's record (R389): cluster and engine. [log 58: DESIGN CHOICE] -/
def engineRequester (s : State) (cls : Nat) : Nat := 2 ^ 31 + 2 ^ 24 * (min cls 4) + clusterOf s.cpu.coreId

/-- The record of an engine's write to a line on a LOGGED page (R240, R389). -/
def engineRecord (s : State) (cls : Nat) (ln : LineId) (xs : List Dest) : Option PeatRecord :=
  if isHome s ln then (loggedPart xs).map fun part => sliceRecord part ln.line (engineRequester s cls) 2 else none

/-- The WB packet of an engine's write to a line of another device: whole words, whose other bytes are those
of the line that came for it, with their poison (R223, R284, R400). -/
def engineWriteBack (s : State) (ln : LineId) (key part : BitVec 6) (bs : List (Nat × Byte)) (bad : BitVec 16) (logged : Bool) : Packet :=
  let base := onceLine s ln
  let words := wordsIn bs
  let get := fun o => ((bs.reverse.find? fun x => decide (x.1 = o)).map (·.2)).getD ((base.map fun p => p.data.get o).getD 0)
  let poison := mergePoison ((base.map (·.poison)).getD 0xFFFF) bad (wholeIn bs)
  { linePacket s ln part 8 5 (wbBytes .engine s.cpu.coreId logged words (words &&& poison) get) with key := key }

/-- The line that came for an engine's access takes what the engine writes: a later write of the same operation takes
the other bytes of its words from there (R283, R284). -/
def putOnce (s : State) (ln : LineId) (bs : List (Nat × Byte)) (bad : BitVec 16) : State :=
  let put := fun (p : PeerLine) =>
    if p.line = ln && decide (p.use = .engine) then { p with data := overlay p.data bs.reverse, poison := mergePoison p.poison bad (wholeIn bs) } else p
  { s with mem := { s.mem with peers := s.mem.peers.map put } }

/-- The requester class of an engine's access by its path class (R380); the CFE's and the host's come through the
fabric. [log 74: DESIGN CHOICE] -/
def engineClass (cls : Nat) : Nat := if cls < 4 then cls + 1 else 7

/-- A place on a streaming page (R209). -/
def isStreaming (x : Dest) : Bool :=
  match x with
  | .loc _ => false
  | .glob l _ => decide (leafCache l = 2)

/-- The effects of engine writes on a line: other copies are invalidated at once, monitors fire,
comparators match (R239, R268, R380), and a write to an unpopulated line leaves a RAS record (R207). Bytes
for another device leave as a WB packet. `op` is the operation while it runs. -/
def engineLine (cls : Nat) (op : Option Nat) (xs : List (Dest × Byte)) (bad : List Dest) (s : State) (ln : LineId) : State :=
  let on := fun (x : Dest) => match x with
    | .loc _ => false
    | .glob l pa => decide (leafLine l pa = ln) && !(isHeldPlace s x)
  let offset := fun (x : Dest) => match x with
    | .loc _ => 0
    | .glob _ pa => pa % 128
  let mine := xs.filter fun x => on x.1
  let places := mine.map (·.1)
  let words := maskOf 16 (places.map fun x => offset x / 8)
  let part := if cls < 4 then partOf s else (placesOwner places).getD (partOf s)
  if words = 0 then s
  else if isHome s ln then
    let s := recordDiscarded s part (if cls < 4 then s.cpu.coreId.toNat else sliceNumber ln.line) (ln.line.toNat * 128)
    let s := invalidateOthers (touchHome s ln (places.any isStreaming)) ln.line (fun _ => false) { part := part, cls := cls, op := op }
    let s := match engineRecord s cls ln places with
      | some r => logChoice s r
      | none => s
    watchMatch (fireMonitors s ln.line words) ln.line (engineClass cls) (if cls < 4 then sourcePort s ln.line s.cpu.coreId else 4) 2 ((placesOwner places).getD (partOf s)) words
  else
    let bs := mine.map fun x => (offset x.1, x.2)
    let poison := maskOf 16 ((bad.filter on).map fun x => offset x / 8)
    let key := ((remoteLines s places).head?.map (·.key)).getD 0
    let out := engineWriteBack s ln key part bs poison (loggedPart places).isSome
    let acks := if reachable s ln.dev.toNat then [{ line := ln, src := .peer (lineDie ln), cls := cls, holds := false, fences := [], home := true, op := op }] else []
    inject (putOnce (awaitAcks s acks) ln bs poison) out []

/-- Comparators see an engine's reads of home lines (R378, R380). -/
def watchReads (s : State) (cls : Nat) (xs : List Dest) : State :=
  let home := (xs.filterMap fun x => match x with
    | .loc _ => none
    | .glob l pa => if isHome s (leafLine l pa) then some (leafLine l pa, pa / 8 % 16) else none)
  ((home.map (·.1)).eraseDups).foldl (fun s ln =>
    let s := touchHome s ln (xs.any fun x => isStreaming x && match x with
      | .loc _ => false
      | .glob l pa => decide (leafLine l pa = ln))
    if s.cfe.comparators.isEmpty then s
    else watchMatch s ln.line (engineClass cls) (sourcePort s ln.line s.cpu.coreId) 1 ((placesOwner xs).getD (partOf s))
      (maskOf 16 ((home.filter fun h => decide (h.1 = ln)).map (·.2)))) s

/-- The places of a run of engine writes that are written: in local memory, or in a home word that no core
holds; by kind and byte. -/
def writtenPlaces (s : State) (xs : List Dest) : List (Nat × Nat) :=
  (xs.filterMap fun x => match x with
    | .loc k => some (0, k)
    | .glob l pa => if isHome s (leafLine l pa) && !(isHeldPlace s x) then some (1, pa) else none).eraseDups

/-- Poison of one granule of local memory or of home memory. -/
def setGranule (s : State) (g : Nat × Nat) (v : Bool) : State :=
  if g.1 = 0 then { s with mem := { s.mem with lpoison := s.mem.lpoison.set g.2 v } }
  else { s with mem := { s.mem with ppoison := s.mem.ppoison.set g.2 v } }

/-- Granules all eight bytes of which engine writes cover lose their poison (R223); then those that receive
poisoned bytes take it (R284). -/
def settlePoison (s : State) (xs bad : List Dest) : State :=
  let granules := (writtenPlaces s xs).map fun p => (p.1, p.2 / 8)
  let whole := granules.eraseDups.filter fun g => decide (8 ≤ granules.countP fun h => decide (h = g))
  let s := whole.foldl (fun s g => setGranule s g false) s
  (((writtenPlaces s bad).map fun p => (p.1, p.2 / 8)).eraseDups).foldl (fun s g => setGranule s g true) s

/-- The bytes of local memory that an operation overwrites, as a load may still see them while it runs (R227). -/
def shadowed (s : State) (op : Option Nat) (xs : List Dest) : List Shadow :=
  match op with
  | none => []
  | some n =>
    (xs.filterMap fun x => match x with
      | .loc k => some k
      | .glob _ _ => none).eraseDups.map fun k => { op := n, key := k, val := getLocal s k }

/-- An engine writes bytes to resolved places, in order (R239); the places of `bad` take poison. `op` is the
operation while it runs. -/
def engineWrite (s : State) (cls : Nat) (op : Option Nat) (xs : List (Dest × Byte)) (bad : List Dest) : State :=
  let places := xs.map (·.1)
  let lines := (places.filterMap fun x => match x with
    | .loc _ => none
    | .glob l pa => some (leafLine l pa)).eraseDups
  let old := shadowed s op places
  let s := settlePoison (xs.foldl (fun s x => engineWriteByte s x.1 x.2) s) places bad
  lines.foldl (engineLine cls op xs bad) { s with mem := { s.mem with shadows := s.mem.shadows ++ old } }

/-- Resolve a run of bytes; the first failure ends it. -/
def engineRun (s : State) (d : Nat) (part : BitVec 6) (sup : Bool) (need : Need) (a n : Nat) : Except EngineFail (List Dest) :=
  (List.range n).foldl (fun acc i => match acc with
    | .error e => .error e
    | .ok l => match engineDest s d part sup need ((a + i) % 2 ^ 64) with
      | .error e => .error e
      | .ok x => .ok (l ++ [x])) (.ok [])

/-- Engine writes to a home line that replay names later than another access (R240, R390). -/
def engineHolds (s : State) (cls : Nat) (xs : List Dest) : Bool :=
  xs.any fun x => match x with
    | .loc _ => false
    | .glob l pa => (engineRecord s cls (leafLine l pa) xs).any (replayHolds s)

/-- A record written to global memory as an engine write on path class 1, and whether it was performed (R383).
The home slice holds one that replay names later (R390), and one for another device waits for its line, which says
which words are held. `unit` is the unit of an event, or 4 for a sample. -/
def engineStore (s : State) (part : BitVec 6) (a : Nat) (bs : List Byte) (unit : Nat) : State × Bool :=
  let s := engineTouch s part [a]
  match engineRun s s.own.draws part true .write a bs.length with
  | .error _ => (s, false)
  | .ok xs =>
    if xs.any (isHeldPlace s) then (s, false)
    else if engineHolds s 1 xs || !(missingLines s xs).isEmpty then
      match xs with
      | .glob l pa :: _ => (requestOnce { s with mem := { s.mem with kept := s.mem.kept ++ [.engine l.word l.big pa bs unit] } } (missingLines s xs), true)
      | _ => (s, false)
    else (dropLines (engineWrite s 1 none (xs.zip bs) []) (remoteLines s xs), true)

/-! ## The event stream (R386, R387) -/

/-- One record of the event ring: kind, unit, level, slot or tile, status, tag, count, word. -/
structure Event where
  kind : Nat
  unit : Nat
  lvl : Nat
  sub : Nat
  status : Nat
  tag : Nat
  count : Nat
  info : Word

/-- The 32 bytes of an event record. -/
def eventBytes (s : State) (e : Event) : List Byte :=
  toBytes 1 e.kind ++ toBytes 1 e.unit ++ toBytes 1 e.lvl ++ toBytes 1 e.sub ++ toBytes 4 s.cpu.coreId.toNat
    ++ toBytes 8 s.cpu.time.toNat ++ toBytes 2 e.status ++ toBytes 2 e.tag ++ toBytes 4 e.count ++ toBytes 8 e.info.toNat

/-- The event enable bit of a unit: copy 0, matrix 1, scheduler 2, Levee 3 (R386). -/
def eventOn (s : State) (unit : Nat) : Bool := bit s.cpu.evcfg unit

/-- One more record was not written (R383): LOST, and for an event the count of its unit that is reported. -/
def loseEvent (s : State) (unit : Nat) (counts : Bool) : State :=
  { s with cpu := { s.cpu with
      evidx := withField s.cpu.evidx 32 32 (field s.cpu.evidx 32 32 + 1),
      evLost := if counts then s.cpu.evLost.set unit (s.cpu.evLost.get unit + 1) else s.cpu.evLost } }

/-- Write one record at INDEX, and whether it was written (R383). -/
def writeEvent (s : State) (e : Event) : State × Bool :=
  let idx := field s.cpu.evidx 0 32
  let a := field s.cpu.evbase 16 39 * 65536 + 32 * (idx % 2 ^ (11 + field s.cpu.evbase 0 4))
  match engineStore s (partOf s) a (eventBytes s e) e.unit with
  | (s, true) => ({ s with cpu := { s.cpu with evidx := withField s.cpu.evidx 0 32 (idx + 1) } }, true)
  | (s, false) => (s, false)

/-- Record an event when its unit is enabled (R386). Once a record is written, one of kind 11 reports how many
events of the unit were lost before it (R387). -/
def recordEvent (s : State) (e : Event) : State :=
  if eventOn s e.unit then
    match writeEvent s e with
    | (s, false) => loseEvent s e.unit true
    | (s, true) =>
      let lost := s.cpu.evLost.get e.unit
      if lost = 0 then s
      else match writeEvent s { e with kind := 11, count := lost, status := 0, tag := 0, info := 0 } with
        | (s, true) => { s with cpu := { s.cpu with evLost := s.cpu.evLost.set e.unit 0 } }
        | (s, false) => loseEvent s e.unit false
  else s

/-! ## Fault messages and parking (R353 to R355) -/

/-- Post a fault message (R354): to the supervisor core of the partition, or to the CFE with a RAS
record of kind 7 when this core is the supervisor core or PARTID.SV = 0. -/
def postFault (s : State) (code : Word) (pc val w3 task info : Word) : State :=
  let sup := BitVec.ofNat 18 (field s.cpu.partid 6 18)
  if bit s.cpu.partid 47 && decide (sup ≠ s.cpu.coreId) then
    let hdr0 := at_ 56 3 ||| at_ 55 1 ||| at_ 48 22 ||| at_ 0 (field s.cpu.fhand 0 48)
    sendMessage s sup { hdr0 := hdr0, hdr1 := hdr1Of s s.cpu.coreId, body := { p0 := code, p1 := pc, p2 := val, p3 := w3, p4 := task, p5 := info } }
  else rasRecord s 7 0 (partOf s) s.cpu.coreId.toNat pc

/-- MSGINFO and TASKID of the running frame (R148, R299). -/
def msgInfoWord (s : State) : Word := (s.cpu.frames.head?.map (·.msgInfo)).getD 0
/-- TASKID. -/
def taskIdWord (s : State) : Word := (s.cpu.frames.head?.map (·.taskId)).getD 0

/-- Payload word 3 of a fault message (R354). -/
def faultWord3 (s : State) (parked : Bool) : Word := at_ 0 (bnat parked) ||| at_ 8 (level s) ||| at_ 16 (bnat (isIdle s))

/-- Park with a park address, where its frame then stands, with bit 0 of its pc zero (R33): the core publishes first,
as a release (R355, R236). [log 35: DESIGN CHOICE] -/
def parkAt (s : State) (addr : Word) : State :=
  let s := dropUsed (writePc (publish s) (addr &&& ~~~ 1))
  { s with cpu := { s.cpu with parked := some addr, ldhsSince := none } }

/-- Write TRAPCAUSE, TRAPPC and TRAPVAL (R345 step 1). -/
def setTrapRegs (s : State) (cause : BitVec 8) (pc val : Word) : State :=
  { s with cpu := { s.cpu with trapCause := zextField cause, trapPc := pc, trapVal := val } }

/-- RSVD (R57): the registers are set, a fault message is posted and the core parks. -/
def parkReserved (s : State) (insn : Word) : State :=
  let pc := readPc s
  let s := setTrapRegs s causeRsvd pc insn
  parkAt (postFault s (zextField causeRsvd) pc insn (faultWord3 s true) (taskIdWord s) (msgInfoWord s)) pc

/-- In minimal mode only the host link and the recovery loader run (R450): what else would happen has no effect. -/
def unlessMinimal (s t : State) : State := if s.cfe.bootState = 2 then s else t

/-! ## Debug halts (R372, R373) -/

/-- The bit of this core in the debug module's fields. -/
def ownBit (s : State) : BitVec 4 := BitVec.ofNat 4 (2 ^ coreIndex s.cpu.coreId)

/-- Other cores of the cluster enter debug mode (R372): where each stands, which its DPCc takes, is not the model's
state, and free. [log 39: DESIGN CHOICE] -/
def haltSiblings (s : State) (mask : BitVec 4) : State :=
  (List.range 4).foldl (fun s c =>
    if bit mask c && decide (c ≠ coreIndex s.cpu.coreId) && !(bit s.dbg.halted c) then
      let d := draw s (2 ^ 54)
      { d.2 with dbg := { d.2.dbg with halted := d.2.dbg.halted ||| BitVec.ofNat 4 (2 ^ c), dpc := d.2.dbg.dpc.set c (word (2 * d.1)) } }
    else s) s

/-- The core enters debug mode at a boundary: it publishes, and DPCc takes the address of the
instruction not yet begun (R372). -/
def haltCore (s : State) (cause : BitVec 8) : State :=
  let pc := readPc s
  let s := haltSiblings (publish s) (if cause = 1 then 0 else 0xF)
  { s with
    cpu := { s.cpu with halted := true, stepping := false, ldhsSince := none }
    dbg := { s.dbg with
      cause := cause, halted := s.dbg.halted ||| ownBit s, frozen := true,
      dpc := s.dbg.dpc.set (coreIndex s.cpu.coreId) (pc &&& at_ 0 (2 ^ 55 - 1)),
      triggers := s.dbg.triggers + bnat s.dbg.xtout } }

/-- The engines are frozen from the first halt of a core to the first resume, and during a step (R372,
R375, R376). -/
def enginesFrozen (s : State) : Bool := s.dbg.frozen || s.cpu.stepping

/-- Debug entry is enabled for a bit of BRKEN or TRAPEN (R371). -/
def debugOn (s : State) (en : BitVec 4) : Bool := s.dbg.en && bit en (coreIndex s.cpu.coreId)

/-! ## Taking a trap and returning (R345 to R350) -/

/-- Steps 2 to 4 of R345: push the trap frame with the window of R346 and begin at TVEC. -/
def pushTrap (s : State) (onIdle : Bool) (operation : Option Nat) : State :=
  let regs := Table.set (Table.set (Table.set (Table.set [] 2 s.cpu.tscr) 3 s.cpu.trapCause) 4 s.cpu.trapPc) 5 s.cpu.trapVal
  let t : TrapFrame := { pc := word (field s.cpu.tvec 3 45 * 8), regs := regs, poison := [], keptMode := mode s, onIdle := onIdle, operation := operation }
  dropUsed { s with cpu := { s.cpu with trap := some t, ldhsSince := none } }

/-- A trap with no handler or inside a trap frame posts NESTED and parks (R349). -/
def nestedTrap (s : State) (cause : BitVec 8) (pc val : Word) : State :=
  let code := zextField causeNested ||| at_ 8 cause.toNat
  parkAt (postFault s code pc val (faultWord3 s true) (taskIdWord s) (msgInfoWord s)) pc

/-- TAKING A TRAP (R345, R349): inside a trap frame it is nested and leaves the trap registers;
otherwise they are written, and the core enters a trap frame at TVEC, or parks with NESTED while
TVEC.V = 0. TRAPEN of the debug module halts the core before the entry (R373). -/
def takeTrapAt (s : State) (cause : BitVec 8) (pc val : Word) (onIdle : Bool) (operation : Option Nat) : State :=
  if s.cpu.trap.isSome then nestedTrap s cause pc val
  else
    let s := setTrapRegs s cause pc val
    if debugOn s s.dbg.trapen && operation.isNone then
      let h := haltCore s 5
      { h with cpu := { h.cpu with trapWaits := true } }
    else if bit s.cpu.tvec 0 then pushTrap s onIdle operation
    else nestedTrap s cause pc val

/-- A synchronous trap of the running instruction (R345). -/
def takeTrap (s : State) (cause : BitVec 8) (val : Word) : State :=
  let s := if cause = causeRace then countEvent s 7 1
    else if cause = causePoison then rasRecord s 4 0 (partOf s) s.cpu.coreId.toNat val
    else s
  takeTrapAt s cause (readPc s) val false none

/-- TRET applies MFAULT.ABORT to the faulted operation of an issuing level (R293, R350): the
operation ends with the fault's cause as its status, or it is suspended at the faulting chunk. -/
def applyAbort (s : State) (lvl : Nat) : State :=
  let put := fun (m : MatrixOp) =>
    match m.fault with
    | some f =>
      if m.cmd.fin.level = lvl && !m.trapPending then
        if bit s.cpu.mfault 63 then
          { m with fault := none, finished := true, status := if m.status &&& 0xFF = 0 then m.status ||| BitVec.ofNat 16 (f.kind.toNat + 2) else m.status }
        else { m with fault := none }
      else m
    | none => m
  let resumed := s.eng.waiting.filter fun m => m.fault.isSome && decide (m.cmd.fin.level = lvl) && !m.trapPending && !bit s.cpu.mfault 63
  resumed.foldl (fun s m => recordEvent s { kind := 3, unit := 1, lvl := lvl, sub := m.cmd.tile, status := 0, tag := m.cmd.fin.tag.toNat, count := 0, info := zextField m.cmd.fin.word })
    { s with eng := { s.eng with waiting := s.eng.waiting.map put } }

/-- The frame of a level, or the trap frame, is gone: replies to its registers find no register. -/
def orphanReplies (s : State) (tag : Option Nat) : State :=
  { s with cpu := { s.cpu with inFlight := s.cpu.inFlight.map fun a => if a.level = tag then { a with returning := false } else a } }

/-- The core parks at its boundary by a request of another core (R368), which states no TRAPVAL: it is free. [log 35: DESIGN CHOICE] -/
def parkByRequest (s : State) : State :=
  let pc := readPc s
  let d := draw s (2 ^ 64)
  parkAt (setTrapRegs { d.2 with cpu := { d.2.cpu with parkWaits := false } } causeParked pc (word d.1)) pc

/-- The first boundary after a trap frame's TRET, at which a PARK request that waited for it acts (R368). -/
def afterTrap (s : State) : State :=
  if s.cpu.parkWaits && s.cpu.trap.isNone && s.cpu.parked.isNone && !s.cpu.trapWaits then parkByRequest s else s

/-- RETURNING FROM A TRAP (R98, R350): the trap frame is left, and the core goes on at TRAPPC, or is
idle again, or traps MISALIGN at the TRET. -/
def returnFromTrap (s : State) : State :=
  match s.cpu.trap with
  | none => s
  | some t =>
    let s := match t.operation with
      | some lvl => if s.cpu.trapCause = zextField causeMfetch then applyAbort s lvl else s
      | none => s
    let s := orphanReplies { s with cpu := { s.cpu with trap := none } } none
    afterTrap (if t.onIdle then retire s
      else if bit s.cpu.trapPc 0 then takeTrapAt s causeMisalign t.pc s.cpu.trapPc false none
      else retire (writePc s s.cpu.trapPc))

end Sys2Proof.Machine
end

