-- ==== Sys2Proof/Machine/Home.lean ====
section
/-! DEFINITION. What a home slice of this device performs for the core and for others: atomics, grants,
write-backs and publications of other holders, fills, invalidations and monitor decrements (R205 to
R213, R228 to R240, R252 to R258, R268, R269, R400). -/

namespace Sys2Proof.Machine

/-! ## Atomics at the home slice -/

/-- The new value of an atomic of `n` bytes (R252 to R255): none for a failed compare. -/
def atomNew (op n : Nat) (old b exp : Nat) : Option Nat :=
  let m := 2 ^ (8 * n)
  let sg := fun (x : Nat) => if m / 2 ≤ x then (x : Int) - m else x
  match op with
  | 0 | 11 => some ((old + b) % m)
  | 1 => some (old &&& b)
  | 2 => some (old ||| b)
  | 3 => some (old ^^^ b)
  | 4 => some (if sg b < sg old then b else old)
  | 5 => some (if sg old < sg b then b else old)
  | 6 => some (min old b)
  | 7 => some (max old b)
  | 8 => some b
  | _ => if old = exp then some b else none

/-- Invalidate every copy of a home line before an access of the home slice, written words first
written back (R210): the core's own copies now, others' by an INV, whose acknowledgements a cause describes. -/
def invalidateNow (s : State) (line : BitVec 37) (c : Cause) : State :=
  let others := (holdersOf s line).filter fun h => !(keepsOwn s h)
  let s := dropCopies s (homeLine s line)
  let acks := invalidationAcks s (homeLine s line) others c.cls c.scope c.holds c.fences c.op
  sendInvalidations (awaitAcks (keepHolders s line fun _ => false) acks) c.part line others

/-- The words of a line that another core, the requester of an atomic, holds and that the atomic meets (R238). -/
def requesterHolds (s : State) (r : AtomRequest) : Option Writer :=
  (dirOf s (BitVec.ofNat 37 (r.pa.toNat / 128))).writers.find? fun w => decide (w.core = r.core) && decide (w.words &&& wordsAt r.pa.toNat (atomSize r) ≠ 0)

/-- The record of the publication that comes before an atomic of another core (R238, R240). -/
def publicationRecord (r : AtomRequest) : PeatRecord := sliceRecord r.part (BitVec.ofNat 37 (r.pa.toNat / 128)) r.core.toNat 2

/-- The words of a line that the requester of an atomic holds are published before it, when it meets one of
them (R238): what another core still has of them has come before its request. -/
def publishFor (s : State) (r : AtomRequest) : State :=
  let line := BitVec.ofNat 37 (r.pa.toNat / 128)
  let words := wordsAt r.pa.toNat (atomSize r)
  let g := grantOf s (homeLine s line)
  if r.core = s.cpu.coreId then (if g.words &&& words ≠ 0 then performPublication systemScope [] s g else s)
  else
    match requesterHolds s r with
    | some w =>
      let s := if r.logged then logChoice s (publicationRecord r) else s
      let d := dirOf s line
      fireMonitors (setDir s line { d with writers := d.writers.erase w }) line w.words
    | none => s

/-- Perform an atomic at its home line (R240, R252 to R255, R258), after what its core held there: the old value, or none for a
poisoned target, which leaves memory as it was. `fences` await the invalidations with it (R245, R246). [log 70: DEDUCED] -/
def performAtomic (s : State) (r : AtomRequest) (fences : List Fence) : State × Option Nat :=
  let n := atomSize r
  let pa := r.pa.toNat
  let line := BitVec.ofNat 37 (pa / 128)
  let s := invalidateNow (touchHome s (homeLine s line) r.streaming) line { part := r.part, cls := if r.core = s.cpu.coreId then 0 else 5, fences := fences }
  if homePoison s pa n then (s, none)
  else
    let old := ofBytes (homeBytes s r.key pa n)
    let s := watchMatch s line (sourceClass s r.core 1) (sourcePort s line r.core) 3 r.part (wordsAt pa n)
    match atomNew r.op.toNat n old (r.new.toNat % 2 ^ (8 * n)) (r.exp.toNat % 2 ^ (8 * n)) with
    | some v => (fireMonitors (putHome s r.key pa (toBytes n v)) line (wordsAt pa n), some old)
    | none => (s, some old)

/-- A request on a poisoned target was not performed: each posted request in it leaves a RAS record (R258,
R410). `addr` is what a record names. -/
def postedLost (s : State) (r : AtomRequest) (addr : Word) : State :=
  if r.posted || !r.lost.isEmpty then
    (if r.lost.isEmpty then [r.core] else r.lost).foldl (fun s c => rasRecord s 6 2 r.part c.toNat addr) s
  else s

/-- The kept requests that came before a request: all, when it is not among them. -/
def keptBefore (s : State) (r : AtomRequest) : List Kept :=
  s.mem.kept.takeWhile fun k => match k with
    | .atomic q _ => decide (q ≠ r)
    | .group g => !(g.contains r)
    | _ => true

/-- In replay the home slice holds a request until its turn (R240, R390): what it performs first is the publication of
words that its core holds (R238), or the atomic. -/
def replayAtomic (s : State) (r : AtomRequest) : Bool :=
  let g := grantOf s (homeLine s (BitVec.ofNat 37 (r.pa.toNat / 128)))
  if r.core = s.cpu.coreId && decide (g.words &&& wordsAt r.pa.toNat (atomSize r) ≠ 0) && g.logged && decide (g.written ≠ 0) then replayPublication s g
  else r.logged && replayHolds s (if (requesterHolds s r).isSome then publicationRecord r else sliceRecord r.part (BitVec.ofNat 37 (r.pa.toNat / 128)) r.core.toNat 3)

/-- An atomic waits at the home slice: a word of it is held, replay names another access or its core's own
publication first, or an earlier request of the same core precedes it (R238, R240, R241, R390). [log 17: DEDUCED] -/
def mustKeep (s : State) (r : AtomRequest) : Bool :=
  meetsHeld s r || replayAtomic s r
    || (keptBefore s r).any fun k => match k with
      | .atomic q _ => precedes s r q
      | .group g => g.any (precedes s r)
      | _ => false

/-- The register value of an old value (R252, R253). -/
def oldValue (n old : Nat) : Word := if n = 4 then sext 32 old else word old

/-- The window that a reply writes: a frame's registers in its stack entry or its spill slot. -/
def replyFrame (s : State) (f : Frame) (r : Nat) (v : Word) (poisoned : Option Word) : State × Frame :=
  let marks := f.poison.filter fun p => p.reg ≠ r
  let marks := match poisoned with
    | some a => { reg := r, addr := a } :: marks
    | none => marks
  if f.spilled then
    let key := ownKey s (f.spillSlot + 8 * r)
    let s := match poisoned with
      | some _ => poisonLocal s key 8
      | none => putLocal s key (toBytes 8 v.toNat)
    (s, { f with poison := marks })
  else (s, { f with regs := if poisoned.isSome then f.regs else f.regs.set r v, poison := marks })

/-- Write one register of the frame of a level, or of the trap frame, by a reply (R242, R258). -/
def replyRegister (s : State) (tag : Option Nat) (r : Nat) (v : Word) (poisoned : Option Word) : State :=
  if r = 0 then s
  else
    match tag with
    | none =>
      match s.cpu.trap with
      | some t =>
        let marks := t.poison.filter fun p => p.reg ≠ r
        let t := match poisoned with
          | some a => { t with poison := { reg := r, addr := a } :: marks }
          | none => { t with regs := t.regs.set r v, poison := marks }
        { s with cpu := { s.cpu with trap := some t } }
      | none => s
    | some lvl =>
      match s.cpu.frames.find? fun f => decide (f.level = lvl) with
      | some f =>
        let x := replyFrame s f r v poisoned
        { x.1 with cpu := { x.1.cpu with frames := x.1.cpu.frames.map fun g => if g.level = lvl then x.2 else g } }
      | none => s

/-- The reply of an atomic reaches its destination (R242, R253, R254, R258). -/
def replyTo (s : State) (a : InFlight) (old : Option Nat) : State :=
  if !a.returning then s
  else
    let p := if old.isNone then some a.addr else none
    let o := old.getD 0
    if a.size = 16 then
      let s := replyRegister s a.level a.rd.toNat (word o) p
      if a.rd = 0 then s else replyRegister s a.level (a.rd.toNat + 1) (word (o / 2 ^ 64)) p
    else replyRegister s a.level a.rd.toNat (oldValue a.size o) p

/-- An outstanding atomic is answered. What came for an instruction that waits for it as an acquire is not kept, since the
instruction's accesses come after it (R230). -/
def answer (s : State) (id : Nat) (old : Option Nat) : State :=
  match s.cpu.inFlight.find? fun a => decide (a.id = id) with
  | some a =>
    let s := if a.fences.isEmpty then s else dropUsed s
    replyTo { s with cpu := { s.cpu with inFlight := s.cpu.inFlight.filter fun a => decide (a.id ≠ id) } } a old
  | none => s

/-- The answer to an atomic of another core leaves as an ATOMR packet for where its request came from, with the
poison of its target (R258, R400, R409). [log 50: DESIGN CHOICE] -/
def answerOther (s : State) (r : AtomRequest) (old : Option Nat) : State :=
  if r.posted then s
  else
    let back := r.via.getD (BitVec.ofNat 8 (idDev r.core), corePort r.core)
    let line := BitVec.ofNat 37 (r.pa.toNat / 128)
    let p := slicePacket s (homeDie line) line back.1.toNat back.2 r.part 0x0D 6 (toBytes (if r.op = 10 then 16 else 8) (old.getD 0))
    inject s { p with pa := r.pa, tags := r.tags, poison := if old.isNone then 0xFFFF else 0 } []

/-- Perform a request at the home slice and answer it; `own` is the number of an outstanding atomic of
the core. [log 17: DEDUCED] -/
def serveAtomic (s : State) (r : AtomRequest) (own : Option Nat) : State :=
  let awaited := own.bind fun id => s.cpu.inFlight.find? fun a => decide (a.id = id)
  let addr := (awaited.map (·.addr)).getD (zextField r.pa)
  let s := publishFor s r
  let s := if r.logged then logChoice s (sliceRecord r.part (BitVec.ofNat 37 (r.pa.toNat / 128)) r.core.toNat 3) else s
  let x := performAtomic s r ((awaited.map (·.fences)).getD [])
  let s := if x.2.isNone then postedLost x.1 r addr else x.1
  match own with
  | some id => answer s id x.2
  | none => answerOther s r x.2

/-- The entry that a request has among the kept ones. [log 21: DEDUCED] -/
def keptAtomic (s : State) (r : AtomRequest) : Option (Option Nat) :=
  s.mem.kept.findSome? fun k => match k with
    | .atomic q own => if q = r then some own else none
    | _ => none

/-- Remove the first kept request that is equal. [log 21: DEDUCED] -/
def unkeep (s : State) (k : Kept) : State := { s with mem := { s.mem with kept := s.mem.kept.erase k } }

/-- Keep a request (R238, R429). -/
def keep (s : State) (k : Kept) : State := { s with mem := { s.mem with kept := s.mem.kept ++ [k] } }

/-- ATOM (R238, R240, R252): a request reaches its home slice and is performed, or is kept while a word
of it is held; a kept request is performed once it is free. -/
def atomArrives (s : State) (r : AtomRequest) : State :=
  match keptAtomic s r with
  | some own => if mustKeep s r then s else serveAtomic (unkeep s (.atomic r own)) r own
  | none => if mustKeep s r then keep s (.atomic r none) else serveAtomic s r none

/-! ## Combined requests (R408, R409) -/

/-- The members of a combined group take the old values of their order (R409). -/
def answerMembers (n : Nat) : List AtomRequest → Nat → Option Nat → State → State
  | [], _, _, s => s
  | r :: rs, sum, old, s =>
    answerMembers n rs (sum + r.new.toNat) old (answerOther s r (old.map fun v => (v + sum) % 2 ^ (8 * n)))

/-- CATOM (R409): the group is one atomic with the sum of its operands, kept whole while a word of it is
held (R238). -/
def catomArrives (s : State) (g : List AtomRequest) : State :=
  match g with
  | [] => s
  | r :: _ =>
    if !(g.all combinable) || !(g.all fun q => decide (q.pa = r.pa) && decide (q.size = r.size) && decide (q.key = r.key) && decide (q.part = r.part)) then s
    else if g.any fun q => mustKeep s q then (if s.mem.kept.contains (.group g) then s else keep s (.group g))
    else
      let s := unkeep s (.group g)
      let s := g.foldl publishFor s
      let s := if g.any (·.logged) then logChoice s (sliceRecord r.part (BitVec.ofNat 37 (r.pa.toNat / 128)) (lowestCore g) 3) else s
      let x := performAtomic s (wholeRequest g) []
      answerMembers (atomSize r) g 0 x.2 (if x.2.isNone then g.foldl (fun s q => postedLost s q (zextField q.pa)) x.1 else x.1)

/-- ATOMR (R242): the reply of an atomic homed on another device returns. -/
def atomrArrives (s : State) (r : AtomReply) : State :=
  answer s r.id (if r.poisoned then none else some r.old.toNat)

/-! ## Grants (R232) -/

/-- Marks of the granted words in the core's own copies (R232). -/
def markCopies (s : State) (ln : LineId) (q : GrantRequest) (words : BitVec 16) : State :=
  let ms := (bitsOf words).map fun w => { word := w, holder := q.core, release := q.release : Mark }
  let keepOld := fun (m : Mark) => !(bit words m.word && decide (m.holder = q.core))
  let upd := fun (l : List Mark) => l.filter keepOld ++ ms
  { s with mem := { s.mem with
      stash := s.mem.stash.map fun l => if l.line = ln then { l with marks := upd l.marks } else l,
      peers := s.mem.peers.map fun p => if p.line = ln then { p with marks := upd p.marks } else p } }

/-- The marks of a holder's words leave the core's own copies: it has published them (R232). -/
def unmarkCopies (s : State) (ln : LineId) (core : BitVec 18) : State :=
  let off := fun (l : List Mark) => l.filter fun m => decide (m.holder ≠ core)
  { s with mem := { s.mem with
      stash := s.mem.stash.map fun l => if l.line = ln then { l with marks := off l.marks } else l,
      peers := s.mem.peers.map fun p => if p.line = ln then { p with marks := off p.marks } else p } }

/-- The words go to the writer slot of another core. -/
def addWriter (s : State) (line : BitVec 37) (q : GrantRequest) : State :=
  let d := dirOf s line
  if d.writers.any fun w => decide (w.core = q.core) then
    let put := fun (w : Writer) => if w.core = q.core then { w with words := w.words ||| q.words, release := if q.release then w.release ||| (q.words &&& ~~~ w.words) else w.release &&& ~~~ q.words } else w
    setDir s line { d with writers := d.writers.map put }
  else setDir s line { d with writers := d.writers ++ [{ core := q.core, words := q.words, release := if q.release then q.words else 0 }] }

/-- The answer to a request for words leaves for the requesting core (R400). [log 50: DESIGN CHOICE] -/
def sendGrant (s : State) (line : BitVec 37) (q : GrantRequest) (a : GrantAnswer) : State :=
  inject s (slicePacket s (homeDie line) line (idDev q.core) (corePort q.core) q.part 0x0B 6 (grantBytes a)) []

/-- The holder of a requested word other than the requester, the lowest word first (R232). -/
def refusedBy (s : State) (line : BitVec 37) (q : GrantRequest) : Option (Nat × BitVec 18) :=
  let own := grantOf s (homeLine s line)
  (bitsOf q.words).findSome? fun w =>
    if bit own.words w && decide (q.core ≠ s.cpu.coreId) then some (w, s.cpu.coreId)
    else ((dirOf s line).writers.find? fun x => decide (x.core ≠ q.core) && bit x.words w).map fun x => (w, x.core)

/-- Both writer slots of a line are held by others (R232). -/
def slotsFull (s : State) (line : BitVec 37) (q : GrantRequest) : Bool :=
  let d := dirOf s line
  let own := if (grantOf s (homeLine s line)).words = 0 then 0 else 1
  !(d.writers.any fun w => decide (w.core = q.core)) && decide (2 ≤ d.writers.length + own)

/-- An acknowledgement of a class about a line is awaited. -/
def awaitsAck (s : State) (ln : LineId) (cls : Nat) : Bool := s.cpu.acks.any fun a => decide (a.line = ln) && decide (a.cls = cls)

/-- What the slices owe leaves once the acknowledgements that it awaits have returned: the acknowledgement of a
publication after those of its invalidations (R229, R411), a grant after those of its marks (R232), and what a home on
another device asked of the die's copies after theirs (R211). -/
def sendOwed (s : State) : State :=
  s.mem.owed.foldl (fun s o =>
    let sent := { s with mem := { s.mem with owed := s.mem.owed.erase o } }
    match o with
    | .ack line die part => if awaitsAck s (homeLine s line) 7 || s.mem.invs.contains (homeLine s line) then s else inject sent (homePacket s line die part 0x0C 6 []) []
    | .grant line q => if awaitsAck s (homeLine s line) 6 then s else sendGrant sent line q (.granted q.words)
    | .copyAck ln part => if awaitsAck s ln 9 then s else inject sent (linePacket s ln part 0x0C 6 []) []) s

/-- An acknowledgement for a home on another device is owed, once the stashes behind the copy of the core's die have
done what it asked (R211, R232). -/
def oweCopy (s : State) (ln : LineId) (part : BitVec 6) (hs : List Sharer) : State :=
  let s := awaitAcks s (invalidationAcks s ln hs 9 systemScope false [])
  sendOwed { s with mem := { s.mem with owed := s.mem.owed ++ [.copyAck ln part] } }

/-- The words granted to another core are marked in every other copy of a home line (R232): in the copies of
this core and its die at once, in those of other holders when they have been told. -/
def markFor (s : State) (line : BitVec 37) (q : GrantRequest) : State :=
  markHolders (markCopies s (homeLine s line) q q.words) line q ((holdersOf s line).filter fun h => !(keepsOwn s h) && decide (h ≠ .stash q.core))

/-- NOTICE at the home slice (R232): refused, kept until a slot and room in the set are free, or granted once
every mark has been acknowledged. [log 21: DEDUCED] -/
def requestArrives (s : State) (line : BitVec 37) (q : GrantRequest) : State :=
  let ln := homeLine s line
  let wait := if s.mem.kept.contains (.grant ln q) then s else sendGrant (keep s (.grant ln q)) line q .waits
  match refusedBy s line q with
  | some (w, h) => sendGrant (unkeep s (.grant ln q)) line q (.refused (BitVec.ofNat 4 w) h)
  | none =>
    if slotsFull s line q then wait
    else
      match l2Reach s (homeDie line) ln false with
      | none => wait
      | some s =>
        let s := markFor (addWriter (unkeep s (.grant ln q)) line q) line q
        sendOwed { s with mem := { s.mem with owed := s.mem.owed ++ [.grant line q] } }

/-- NOTICE (R211, R232): a request at the home slice of a line of this device; at the peer-copy slice of the
core's die a request that it forwards to the home on another device, or the marks of a grant, which its stashes take
and it acknowledges. -/
def noticeArrives (s : State) (ln : LineId) (q : GrantRequest) : State :=
  if q.core = s.cpu.coreId then s
  else if isHome s ln then requestArrives s ln.line q
  else if q.mark then oweCopy (markCopies s ln q q.words) ln q.part ((dieStashes s ln).filter fun h => decide (h ≠ .stash q.core))
  else inject s { linePacket s ln q.part 5 4 (noticeBytes q) with sport := corePort q.core } []

/-- GRANT (R232): the answer to a request of the core for words of a line of another device. A core that has to
wait publishes first (R236). [log 18: DEDUCED] -/
def grantArrives (s : State) (ln : LineId) (a : GrantAnswer) : State :=
  match s.mem.requested.find? fun r => decide (r.line = ln) && decide (r.want = .grant) with
  | none => s
  | some q =>
    let done := { s with mem := { s.mem with requested := s.mem.requested.erase q } }
    match a with
    | .granted ws =>
      let g := grantOf s ln
      setGrant done { g with words := g.words ||| ws, release := if q.release then g.release ||| (ws &&& ~~~ g.words) else g.release &&& ~~~ ws }
    | .refused w h => { done with mem := { done.mem with refusals := done.mem.refusals ++ [(ln, w.toNat, h)] } }
    | .waits => publish s

/-! ## Fills and lines (R205, R210, R211) -/

/-- The words of a home line that cores hold, as its copies are told (R232). -/
def lineMarks (s : State) (line : BitVec 37) : List HeldWord :=
  let own := grantOf s (homeLine s line)
  (homeMarks s line).map (fun m => { word := BitVec.ofNat 4 m.word, holder := m.holder, release := m.release })
    ++ (bitsOf own.words).map fun w => { word := BitVec.ofNat 4 w, holder := s.cpu.coreId, release := bit own.release w }

/-- The data of a home line, under the key id of the request, for the slice of another die (R212, R399, R400, R411). -/
def sendData (s : State) (line : BitVec 37) (die : BitVec 10) (key part : BitVec 6) : State :=
  let p := homePacket s line die part 0x0A 6 (homeBytes s key (line.toNat * 128) 128)
  inject s { p with key := key, poison := homeLinePoison s line, marks := lineMarks s line } []

/-- A fill waits at its slice (R209). -/
def keepFill (s : State) (ln : LineId) (q : FillRequest) : State :=
  if s.mem.kept.contains (.fill ln q) then s else keep s (.fill ln q)

/-- Another stash of the core's die asks for a line whose home is not on the die, or writes to one (R211): the peer-copy
slice of the die serves it. -/
def isBehindOwn (s : State) (ln : LineId) (h : Sharer) : Bool :=
  match h with
  | .stash c => decide (idDev c = ownDev s) && decide (idDie c = idDie s.cpu.coreId) && decide (lineDie ln ≠ ownDie s)
  | .peer _ => false

/-- A fill at the home slice (R210): it waits while its set has no room (R209); the requester is recorded, and its data
leaves. While a comparator watches the line no copy is granted (R379). -/
def homeFills (s : State) (ln : LineId) (q : FillRequest) : State :=
  let agent := match q.holder with
    | .stash c => c
    | .peer d => BitVec.ofNat 18 (d.toNat / 4 * 1024 + d.toNat % 4 * 256)
  let cls := match q.holder with
    | .stash _ => 0
    | .peer _ => 6
  match l2Reach s (homeDie ln.line) ln false with
  | none => keepFill s ln q
  | some t =>
    let s := unkeep t (.fill ln q)
    let s := watchMatch s ln.line (sourceClass s agent cls) (sourcePort s ln.line agent) 1 q.part 0xFFFF
    let s := if isWatched s ln.line then s else addSharer s ln.line q.holder
    match asHolder s ln.line q.holder with
    | .peer d => if d = ownDie s then s else sendData s ln.line d q.key q.part
    | .stash _ => s

/-- A fill of another stash of the core's die at the peer-copy slice of the die (R211): the copy serves it, under its
key id (R212); on a miss it comes from the home of this device, or is asked of another device's, and the fill waits. -/
def peerFills (s : State) (ln : LineId) (q : FillRequest) : State :=
  let record := fun (s : State) =>
    let put := fun (p : PeerLine) => if p.line = ln && !(p.sharers.contains q.holder) then { p with sharers := p.sharers ++ [q.holder] } else p
    unkeep { s with mem := { s.mem with peers := s.mem.peers.map put } } (.fill ln q)
  let s := dropOtherKey s ln q.key
  if isHome s ln && isWatched s ln.line then
    watchMatch (unkeep s (.fill ln q)) ln.line 6 4 1 q.part 0xFFFF
  else if (peerLine s ln).isSome then record ((l2Reach s (idDie s.cpu.coreId) ln false).getD s)
  else if isHome s ln then
    match l2Room s ln true false with
    | none => keepFill s ln q
    | some t => record (watchMatch (fillPeer t ln q.key) ln.line 6 4 1 q.part 0xFFFF)
  else if reachable s ln.dev.toNat then keepFill (requestLine s ln (.line .copy) q.key q.part false []) ln q
  else unkeep s (.fill ln q)

/-- Start the fill of a line for SPF (R265): it waits while its set has no room (R209), and fills the stash when it has
come from another device. -/
def prefetchLine (s : State) (ln : LineId) (key : BitVec 6) : State :=
  match reachLineOr id s ln key 0 0xFFFF with
  | .ok s _ => s
  | .trap s _ _ => s
  | .stall s =>
    let put := fun (r : LineRequest) => if r.line = ln && decide (r.want = .line .copy) then { r with stash := true } else r
    let t := { s with mem := { s.mem with requested := s.mem.requested.map put } }
    if s.mem.requested.any fun r => decide (r.line = ln) && decide (r.want = .line .copy) then t
    else keepFill s ln { holder := ownStash s, key := key, part := partOf s }

/-- The fill that an SPF started and that found no room in a set goes on (R209, R265). -/
def ownFills (s : State) (ln : LineId) (q : FillRequest) : State := prefetchLine (unkeep s (.fill ln q)) ln q.key

/-- FILL (R210, R211): at the home slice, or at the peer-copy slice of the core's die; one that SPF started is the core's
own. -/
def fillArrives (s : State) (ln : LineId) (q : FillRequest) : State :=
  if q.holder = ownStash s then (if s.mem.kept.contains (.fill ln q) then ownFills s ln q else s)
  else if isBehindOwn s ln q.holder || !(isHome s ln) then peerFills s ln q
  else homeFills s ln q

/-- The awaited line that a reply answers: for a copy first. -/
def awaitedLine (s : State) (ln : LineId) : Option (LineRequest × LineUse) :=
  [LineUse.copy, .core, .engine].findSome? fun u =>
    (s.mem.requested.find? fun r => decide (r.line = ln) && decide (r.want = .line u)).map fun r => (r, u)

/-- A line of another device takes its place among what the die holds, with the bytes that the core has sent
and not yet published (R92); none when a copy finds no room in its set (R209). -/
def placeLine (s : State) (ln : LineId) (q : LineRequest) (u : LineUse) (r : LineReply) : Option State :=
  let room := if u = .copy then l2Reach s (idDie s.cpu.coreId) ln false else some s
  room.map fun s =>
    let own := if u = .engine then [] else (grantOf s ln).sent
    let marks := r.marks.map fun m => { word := m.word.toNat, holder := m.holder, release := m.release : Mark }
    let p : PeerLine := { line := ln, data := overlay (lineTable (r.bytes.take 128)) own, poison := r.poison &&& ~~~ wholeIn own, marks := marks, sharers := [], key := q.key, use := u }
    { s with mem := { s.mem with peers := (s.mem.peers.filter fun x => !(decide (x.line = ln) && decide (x.use = u))) ++ [p] } }

/-- A fill that SPF started goes on to the stash (R265). -/
def fillStash (s : State) (ln : LineId) (q : LineRequest) : State :=
  match peerLine s ln with
  | some p =>
    if q.stash && hasStash s && (stashLine s ln).isNone then recordStash (insertStash s ln p.key ((List.range 128).map p.data.get) p.poison p.marks) ln else s
  | none => s

/-- DATA (R205, R211): a line of another device that the core or an engine awaits arrives; it waits for room in its set
(R209). [log 18: DEDUCED] -/
def dataArrives (s : State) (ln : LineId) (r : LineReply) : State :=
  let s := unkeep s (.data ln r)
  match awaitedLine s ln with
  | some (q, u) =>
    match placeLine s ln q u r with
    | some t => fillStash { t with mem := { t.mem with requested := t.mem.requested.erase q } } ln q
    | none => keep s (.data ln r)
  | none => s

/-! ## Release messages of engine operations (R275) -/

/-- The release message of a completed operation: traffic class 3 and RELEASE set (R275). -/
def releaseMessage (s : State) (r : ReleaseImage) : Message where
  hdr0 := (r.hdr0 &&& ~~~ at_ 56 3) ||| at_ 56 3 ||| at_ 53 1
  hdr1 := hdr1Of s s.cpu.coreId
  body := { p0 := r.p0, p1 := r.p1, p2 := r.p2, p3 := r.p3, p4 := r.p4, p5 := r.p5 }

/-- Release messages leave, in order, once the invalidations of their class are acknowledged (R275). -/
def sendReleases (s : State) : State :=
  s.eng.releases.foldl (fun s r =>
    if s.cpu.acks.any fun a => decide (a.cls = r.cls) then s
    else sendMessage { s with eng := { s.eng with releases := s.eng.releases.erase r } } r.target (releaseMessage s r)) s

/-- The acknowledgement class of a host write. -/
def hostClass (tid : BitVec 16) : Nat := 1000 + tid.toNat

/-- The answer of a host write (R432). -/
def writeAnswer (tid : BitVec 16) (stat : Nat) : HtlPacket :=
  { type := 0x11, part := 0, stat := BitVec.ofNat 4 stat, tid := tid, len := 0, rsvd := false, addr := 0, body := [] }

/-- Host writes are acknowledged once the invalidations they caused have been (R429). -/
def sendHostAcks (s : State) : State :=
  s.cfe.hostAcks.foldl (fun s tid =>
    if s.cpu.acks.any fun a => decide (a.cls = hostClass tid) then s
    else { s with cfe := { s.cfe with hostAcks := s.cfe.hostAcks.erase tid, toHost := s.cfe.toHost ++ [writeAnswer tid 0] } }) s

/-- Atomics for another device leave once the home has acknowledged what the core sent it about their lines (R238,
R240), in their order. -/
def sendRemotes (s : State) : State :=
  s.mem.kept.foldl (fun s k => match k with
    | .remote ln p r id =>
      if homePending s ln then s
      else if reachable s ln.dev.toNat then inject (unkeep s k) p [r]
      else answer (unkeep s k) id none
    | _ => s) s

/-- What waits for acknowledgements at this device goes on when one has returned: releases of engine operations,
host writes, what the slices owe, monitor decrements, and atomics for other devices. -/
def settle (s : State) : State := sendRemotes (sendHostAcks (sendReleases (sendFirings (sendOwed s))))

/-! ## Write-backs and invalidations (R205, R210, R229) -/

/-- Merge words of another holder into a home line, under their key id (R212), with their poison (R223). -/
def mergeWords (s : State) (ln : LineId) (w : WriteBack) (words : BitVec 16) : State :=
  let base := ln.line.toNat * 128
  let put := fun (s : State) (p : Nat × Word) =>
    if bit words p.1 then
      let t := putHome s w.key (base + 8 * p.1) (toBytes 8 p.2.toNat)
      if bit w.poison p.1 then poisonHome t (base + 8 * p.1) 8 else t
    else s
  let s := if words = 0 then s else recordDiscarded s w.part (if w.kind = .engine then w.core.toNat else sliceNumber ln.line) base
  ((bitsOf w.words).zip w.data).foldl put s

/-- The acknowledgement of a WB that its sender awaits (R229, R400): to the slice that it came from. -/
def oweAck (s : State) (line : BitVec 37) (w : WriteBack) : State :=
  match w.sharer with
  | .peer d => if d = ownDie s then s else { s with mem := { s.mem with owed := s.mem.owed ++ [.ack line d w.part] } }
  | .stash _ => s

/-- The effects of a write of another agent at a home line (R210, R229, R239): other copies than those that `keep`
names are invalidated, comparators see it, and monitors fire. -/
def otherWrites (s : State) (line : BitVec 37) (w : WriteBack) (words : BitVec 16) (keep : Sharer → Bool) : State :=
  let cls := if w.kind = .engine then sourceClass s w.core 2 else sourceClass s w.core 0
  let s := invalidateOthers s line keep { part := w.part, cls := 7 }
  let s := watchMatch s line cls (sourcePort s line w.core) 2 w.part words
  sendOwed (fireMonitors (oweAck s line w) line words)

/-- A publication of another core frees its words, and every other copy is invalidated (R210, R229). -/
def otherPublishes (s : State) (line : BitVec 37) (w : WriteBack) : State :=
  let d := dirOf s line
  let published := ((d.writers.find? fun x => decide (x.core = w.core)).map (·.words)).getD 0
  otherWrites (setDir s line { d with writers := d.writers.filter fun x => decide (x.core ≠ w.core) }) line w (w.words ||| published)
    fun h => decide (h = asHolder s line w.sharer) || decide (h = .stash w.core)

/-- The words that cores hold of a home line, which an engine's write leaves alone (R239). -/
def heldWords (s : State) (line : BitVec 37) : BitVec 16 :=
  (dirOf s line).writers.foldl (fun m w => m ||| w.words) (grantOf s (homeLine s line)).words

/-- A WB that takes a place in its line's order (R240): a publication, or an engine's write, of a LOGGED page. -/
def isStrongMerge (w : WriteBack) : Bool := w.logged && (decide (w.kind = .publication) || decide (w.kind = .engine))

/-- The record of a merge at a home slice (R389). -/
def mergeRecord (ln : LineId) (w : WriteBack) : PeatRecord := sliceRecord w.part ln.line w.core.toNat 2

/-- WB at the home slice (R210): a write-back, a publication merge, an eviction notice, or an engine's write. -/
def mergeArrives (s : State) (ln : LineId) (w : WriteBack) : State :=
  let s := touchHome s ln false
  let s := if isStrongMerge w then logChoice s (mergeRecord ln w) else s
  match w.kind with
  | .writeBack => sendOwed (oweAck (mergeWords s ln w w.words) ln.line w)
  | .publication => otherPublishes (mergeWords s ln w w.words) ln.line w
  | .eviction => setDir s ln.line { dirOf s ln.line with sharers := (dirOf s ln.line).sharers.filter fun h => decide (h ≠ asHolder s ln.line w.sharer) }
  | .engine =>
    let words := w.words &&& ~~~ heldWords s ln.line
    otherWrites (mergeWords s ln w words) ln.line w words fun _ => false

/-- The bytes of a WB by offset. -/
def mergeBytes (w : WriteBack) : List (Nat × Byte) :=
  ((bitsOf w.words).zip w.data).flatMap fun p => (List.range 8).map fun i => (8 * p.1 + i, (toBytes 8 p.2.toNat).getD i 0)

/-- A publication of another core of the die reaches the other copies behind the die's (R211, R229): this core's own goes,
written words first written back, and the others' are invalidated. -/
def publishBehind (s : State) (ln : LineId) (w : WriteBack) : State :=
  let s := match stashLine s ln with
    | some l => evictLine s l
    | none => s
  let others := (dieStashes s ln).filter fun h => decide (h ≠ w.sharer)
  keepBehind (awaitAcks s (invalidationAcks s ln others 7 systemScope false [])) ln w.sharer

/-- WB at the peer-copy slice of the core's die, from another stash of the die (R211): the copy takes its words, a
publication invalidates the other copies behind it, and the home is told of what it must see: an evicted stash is only
the slice's concern. -/
def forwardWriteBack (s : State) (ln : LineId) (w : WriteBack) : State :=
  let bytes := mergeBytes w
  let get := fun o => ((bytes.find? fun b => decide (b.1 = o)).map (·.2)).getD 0
  let behind := { s with mem := { s.mem with peers := s.mem.peers.map fun p => if p.line = ln then { p with sharers := p.sharers.filter fun h => decide (h ≠ w.sharer) } else p } }
  match w.kind with
  | .eviction => behind
  | k =>
    let s := if k = .publication then publishBehind s ln w else s
    let s := putPeer s ln bytes w.poison w.words
    let s := if k = .publication then unmarkCopies s ln w.core else s
    if isHome s ln then mergeArrives s ln { w with sharer := .peer (ownDie s) }
    else
      let ack : Ack := { line := ln, src := .peer (lineDie ln), cls := 5, holds := false, fences := [], home := true }
      let s := if reachable s ln.dev.toNat then awaitAcks s [ack] else s
      inject s { linePacket s ln w.part 8 5 (wbBytes w.kind w.core w.logged w.words w.poison get) with key := w.key } []

/-- WB (R210, R211): at the home slice, or from another stash of the core's die at the die's peer-copy slice; an engine's
write always goes home (R226). In replay a logged merge waits for its turn (R240, R390). -/
def wbArrives (s : State) (ln : LineId) (w : WriteBack) : State :=
  if w.core = s.cpu.coreId && decide (w.kind ≠ .eviction) then s
  else if isHome s ln && isStrongMerge w && replayHolds s (mergeRecord ln w) then
    (if s.mem.kept.contains (.writeBack ln w) then s else keep s (.writeBack ln w))
  else
    let s := unkeep s (.writeBack ln w)
    if (isBehindOwn s ln w.sharer && decide (w.kind ≠ .engine)) || !(isHome s ln) then forwardWriteBack s ln w
    else mergeArrives s ln w

/-- INV (R210, R211): the core's and its die's copies of a line are invalidated, the core's written
words first written back, and the invalidation is acknowledged, after the other stashes of the die. -/
def invArrives (s : State) (ln : LineId) (part : BitVec 6) : State :=
  if isHome s ln then
    if s.mem.invs.contains ln then
      let s := dropCopies { s with mem := { s.mem with invs := s.mem.invs.erase ln } } ln
      settle { s with cpu := { s.cpu with acks := s.cpu.acks.filter fun a => !(decide (a.line = ln) && keepsOwn s a.src) } }
    else s
  else oweCopy (dropCopies s ln) ln part (dieStashes s ln)

/-- An acknowledgement that comes only once the model has done its own part: of a copy of the core's own, which
acknowledges by its INV, and of a publication that has not had its turn (R240, R390), unless an earlier one of the same
home is awaited. -/
def ackWaits (s : State) (ln : LineId) (src : Sharer) : Bool :=
  (keepsOwn s src && s.mem.invs.contains ln)
    || (isPublishing s ln && decide (src = .peer (lineDie ln)) && decide (s.cpu.acks.countP (fun a => decide (a.line = ln) && decide (a.src = src)) ≤ 1))

/-- ACK (R229): an awaited acknowledgement returns. -/
def ackArrives (s : State) (ln : LineId) (src : Sharer) : State :=
  if ackWaits s ln src then s
  else
    match s.cpu.acks.find? fun a => decide (a.line = ln) && decide (a.src = src) with
    | some a => settle { s with cpu := { s.cpu with acks := s.cpu.acks.erase a } }
    | none => s

/-! ## What a home slice kept (R238, R240, R390) -/

/-- A publication of the core that waited is performed in its turn: what fences asked of its acknowledgement they ask of
those of its invalidations (R245, R246). -/
def publicationArrives (s : State) (ln : LineId) (scope : Word) : State :=
  let g := grantOf s ln
  if publicationWaits s g then s
  else
    let s := unkeep s (.publication ln scope)
    match s.cpu.acks.reverse.find? fun a => decide (a.line = ln) && a.home && a.holds with
    | some a => settle (performPublication scope a.fences { s with cpu := { s.cpu with acks := s.cpu.acks.erase a } } g)
    | none => settle (performPublication scope [] s g)

/-- An engine's record that waited for its turn in replay, or for the line of another device, is written; a held word
counts it as lost (R383). -/
def recordArrives (s : State) (leaf : Word) (big : Bool) (pa : Nat) (bytes : List Byte) (unit : Nat) : State :=
  let places := (List.range bytes.length).map fun i => Dest.glob { word := leaf, big := big } (pa + i)
  let miss := missingLines s places
  if !miss.isEmpty then requestOnce s miss
  else if engineHolds s 1 places then s
  else
    let used := remoteLines s places
    let s := unkeep s (.engine leaf big pa bytes unit)
    if places.any (isHeldPlace s) then
      let s := dropLines s used
      if unit = 4 then { s with cpu := { s.cpu with pcsidx := withField s.cpu.pcsidx 32 32 (field s.cpu.pcsidx 32 32 + 1) } } else loseEvent s unit true
    else dropLines (engineWrite s 1 none (places.zip bytes) []) used

/-! ## Monitors (R268, R269) -/

/-- The core frees the monitor entry that a decrement answers (R268). -/
def freeMonitor (s : State) (ln : LineId) (w : BitVec 4) (n : BitVec 12) : State :=
  match (List.range 16).find? fun i => s.cpu.monitors.get i = some { line := ln, word := w, n := n } with
  | some i => { s with cpu := { s.cpu with monitors := s.cpu.monitors.set i none } }
  | none => s

/-- MONITOR_REMOVAL (R269): the next MONDIS request of the core reaches its home slice. -/
def removalArrives (s : State) : State :=
  match s.mem.removals with
  | [] => s
  | (ln, w) :: rest =>
    let hit := fun (r : Registration) => decide (r.core = s.cpu.coreId) && decide (homeLine s r.line = ln) && decide (r.word = w)
    let gone := s.mem.monitors.filter hit
    let s := { s with mem := { s.mem with removals := rest, monitors := s.mem.monitors.filter fun r => !(hit r) } }
    gone.foldl (fun s r => addFiring s r 1) s

/-! ## The events -/

/-- STORE_BUFFER_DRAIN (R213): the oldest entry drains. -/
def execStoreBufferDrain (s : State) : Host.Outcome State Fault Refusal :=
  .next (match s.mem.buffer with
    | b :: _ => drainEntry s b
    | [] => s)

/-- FILL (R210). -/
def execFill (line : LineId) (req : FillRequest) (s : State) : Host.Outcome State Fault Refusal := .next (fillArrives s line req)

/-- DATA (R205). -/
def execData (line : LineId) (r : LineReply) (s : State) : Host.Outcome State Fault Refusal := .next (dataArrives s line r)

/-- NOTICE (R232). -/
def execNotice (line : LineId) (req : GrantRequest) (s : State) : Host.Outcome State Fault Refusal := .next (noticeArrives s line req)

/-- GRANT (R232). -/
def execGrant (line : LineId) (g : GrantAnswer) (s : State) : Host.Outcome State Fault Refusal := .next (grantArrives s line g)

/-- WB (R210). -/
def execWb (line : LineId) (w : WriteBack) (s : State) : Host.Outcome State Fault Refusal := .next (wbArrives s line w)

/-- INV (R210). -/
def execInv (req : Invalidation) (s : State) : Host.Outcome State Fault Refusal := .next (invArrives s req.line req.part)

/-- ACK (R229). -/
def execAck (line : LineId) (src : Sharer) (s : State) : Host.Outcome State Fault Refusal := .next (ackArrives s line src)

/-- ATOM (R252). -/
def execAtom (req : AtomRequest) (s : State) : Host.Outcome State Fault Refusal := .next (atomArrives s req)

/-- CATOM (R409). -/
def execCatom (reqs : List AtomRequest) (s : State) : Host.Outcome State Fault Refusal := .next (catomArrives s reqs)

/-- ATOMR (R242). -/
def execAtomr (r : AtomReply) (s : State) : Host.Outcome State Fault Refusal := .next (atomrArrives s r)

/-- MONITOR_REMOVAL (R269). -/
def execMonitorRemoval (s : State) : Host.Outcome State Fault Refusal := .next (removalArrives s)

end Sys2Proof.Machine
end

