-- ==== Sys2Proof/Machine/Fetch.lean ====
section
/-! DEFINITION. Fetching an instruction's bytes (R23, R33, R34, R37, R220, R352). -/

namespace Sys2Proof.Machine

/-- The outcome of a fetch: bytes; a failure with the reason of R144 (3 address, 4 translation, 5
permission), the value for XFSTAT and the address; poison; or a line that is not at hand. -/
inductive Fetched (α : Type) where
  | ok (s : State) (a : α)
  | fail (s : State) (reason : Nat) (xf : Word) (addr : Nat)
  | poison (s : State) (addr : Nat)
  | wait (s : State)

/-- Go on with fetched bytes. -/
def Fetched.bind {α β : Type} (x : Fetched α) (f : State → α → Fetched β) : Fetched β :=
  match x with
  | .ok s a => f s a
  | .fail s r xf a => .fail s r xf a
  | .poison s a => .poison s a
  | .wait s => .wait s

/-- The value that a fetch sees at a halfword: the present one, or one that a store replaced since
the last IFENCE, by a free choice for each fetch (R37). [log 13: DEDUCED] -/
def seenHalf (s : State) (key : Nat) (now : BitVec 16) : State × BitVec 16 :=
  let old := (s.cpu.stale.filter fun p => decide (p.1 = key)).map (·.2)
  if old.isEmpty then (s, now)
  else
    let d := draw s (old.length + 1)
    (d.2, if d.1 = 0 then now else old.getD (d.1 - 1) now)

/-- A halfword of own local memory; the layout of a stash in its region is not stated, so bytes
fetched from there are free values. [log 14: DEDUCED] -/
def fetchLocal (s : State) (a : Nat) : Fetched (BitVec 16) :=
  let key := ownKey s a
  if inStash s key 2 then
    let d := draw s 65536
    .ok d.2 (BitVec.ofNat 16 d.1)
  else if localPoison s key 2 then .poison s a
  else
    let r := seenHalf s key (BitVec.ofNat 16 (ofBytes (seenLocals s key 2)))
    .ok r.1 r.2

/-- The granule of a halfword of global memory is poisoned, as the core sees it (R223). -/
def codePoisoned (s : State) (ln : LineId) (pa : Nat) : Bool :=
  if (bufferedByte s ln (pa % 128)).isSome && (bufferedByte s ln (pa % 128 + 1)).isSome then false
  else match stashLine s ln with
    | some l => bit l.poison (pa / 8 % 16)
    | none =>
      if isHome s ln then homePoisoned s pa
      else ((peerLine s ln).orElse fun _ => heldLine s ln .core).any fun p => bit p.poison (pa / 8 % 16)

/-- A halfword of global memory under a leaf: its home on this device is read, which comparators see (R380); a
line of another device comes as a copy, or for this fetch alone where the page allows no copy (R209). `again`:
the fetch of the same instruction has read the word. [log 14: DEDUCED] -/
def fetchGlobal (s : State) (l : Leaf) (a : Nat) (again : Bool) : Fetched (BitVec 16) :=
  let pa := leafPa l a
  let ln := leafLine l pa
  if !isHome s ln && (peerLine s ln).isNone && (heldLine s ln .core).isNone && (stashLine s ln).isNone then
    if reachable s ln.dev.toNat then .wait (requestLine s ln (.line (if leafCache l = 0 then .copy else .core)) (leafKey l) (partOf s) false [])
    else .poison s a
  else
    let s := if isHome s ln && !again then
        watchMatch (touchHome s ln (decide (leafCache l = 2))) ln.line 0 (sourcePort s ln.line s.cpu.coreId) 1 (partOf s) (wordsAt pa 2)
      else s
    if codePoisoned s ln pa then .poison s a
    else
      let now := BitVec.ofNat 16 ((ownByte s ln (leafKey l) (pa % 128)).toNat + 256 * (ownByte s ln (leafKey l) (pa % 128 + 1)).toNat)
      let r := seenHalf s (codeKey ln.dev.toNat pa) now
      .ok r.1 r.2

/-- Fetch the halfword at an even address (R23, R33, R220). -/
def fetchHalf (s : State) (user : Bool) (a : Nat) (again : Bool := false) : Fetched (BitVec 16) :=
  if 2 ^ 55 ≤ a || decide (a < 0x800) || (decide (0x100000 ≤ a) && decide (a < 0x100000000)) then .fail s 3 0 a
  else if a < 0x100000 then fetchLocal s a
  else
    match translate s (ownContext s) a with
    | (s, .error r) => .fail s 4 (xfstatWord r) a
    | (s, .ok l) => if permits l (partOf s) user .exec then fetchGlobal s l a again else .fail s 5 0 a

/-- Fetch an instruction (R34, R39): the halfword at the pc, and the next one when bits [1:0] of the
first are 0b11. The word, and its length in bytes. -/
def fetchInstr (s : State) (user : Bool) (pc : Nat) : Fetched (Nat × Nat) :=
  (fetchHalf s user pc).bind fun s lo =>
    if lo.toNat % 4 = 3 then (fetchHalf s user ((pc + 2) % 2 ^ 64) (decide (pc / 8 = (pc + 2) / 8))).bind fun s hi => .ok s (lo.toNat + 65536 * hi.toNat, 4)
    else .ok s (lo.toNat, 2)

/-- Fetch the 8 bytes of a handler header (R144). -/
def fetchHeader (s : State) (user : Bool) (a : Nat) : Fetched Word :=
  (fetchHalf s user a).bind fun s h0 =>
    (fetchHalf s user (a + 2) true).bind fun s h1 =>
      (fetchHalf s user (a + 4) true).bind fun s h2 =>
        (fetchHalf s user (a + 6) true).bind fun s h3 =>
          .ok s (zextField h0 ||| at_ 16 h1.toNat ||| at_ 32 h2.toNat ||| at_ 48 h3.toNat)

end Sys2Proof.Machine
end

