-- ==== Sys2Proof/Machine/Late.lean ====
section
/-! DEFINITION. What reaches the core's port and waits there: messages without a slot, arrivals for a
partition that is not resident, with their late rings, and PARK requests (R140, R153, R355, R363, R364,
R366, R368). -/

namespace Sys2Proof.Machine

/-- A line of the instruction cache is marked poisoned (R352): for the value of XFSTAT of a failed fetch, or for an
uncorrectable error. -/
def markCode (s : State) (line : Nat) (fault : Option Word) : State :=
  { s with cpu := { s.cpu with badCode := { line := line, fault := fault } :: s.cpu.badCode.filter fun b => decide (b.line ≠ line) } }

/-! ## Context areas and late rings (R363, R366) -/

/-- The physical address of this core's context area of a partition (R438). -/
def contextArea (s : State) (part : BitVec 6) : Option Nat :=
  (s.cfe.partitions.find? fun p => decide (p.id = part)).map fun p =>
    p.area.toNat + 0x200000 * (160 * idDie s.cpu.coreId + 16 * idY s.cpu.coreId + idX s.cpu.coreId)

/-- Bytes of a context area, under the key that each line has. -/
def areaBytes (s : State) (pa n : Nat) : List Byte :=
  (List.range n).map fun i => homeByte s (s.mem.pkey.get ((pa + i) / 128)) (pa + i)

/-- Write at most a line's bytes of a context area of a partition; at an unpopulated address the write is discarded
with a RAS record (R207). -/
def putArea (s : State) (part : BitVec 6) (pa : Nat) (bs : List Byte) : State :=
  putHome (recordDiscarded s part s.cpu.coreId.toNat pa) (s.mem.pkey.get (pa / 128)) pa bs

/-- A 4-byte field of a context area's header. -/
def areaWord (s : State) (pa : Nat) : Nat := ofBytes (areaBytes s pa 4)

/-- The entries of a late ring (R363): RLEN. -/
def ringLength (s : State) (area : Nat) : Nat := 2 ^ (6 + ofBytes (areaBytes s (area + 6) 1) % 8)

/-- The entries that a late ring holds: TAIL less HEAD, modulo 2^32 (R366). -/
def ringCount (s : State) (area : Nat) : Nat := (areaWord s (area + 20) + 2 ^ 32 - areaWord s (area + 16)) % 2 ^ 32

/-- Write an entry of a late ring, then advance TAIL (R366). -/
def writeLate (s : State) (part : BitVec 6) (area : Nat) (entry : List Byte) : State :=
  let tail := areaWord s (area + 20)
  let s := putArea s part (area + 0x41000 + 64 * (tail % ringLength s area)) entry
  putArea s part (area + 20) (toBytes 4 ((tail + 1) % 2 ^ 32))

/-- The port holds an arrival of a partition. -/
def holdLate (s : State) (part : BitVec 6) (entry : List Byte) : State :=
  { s with cpu := { s.cpu with latePort := s.cpu.latePort ++ [(part, entry)] } }

/-- An arrival for a partition that is not resident (R363): into its late ring, or held at the port
while the ring is full or no area is known. [log 34: DESIGN CHOICE] -/
def arriveLate (s : State) (part : BitVec 6) (entry : List Byte) : State :=
  match contextArea s part with
  | none => holdLate s part entry
  | some a =>
    if decide (ringCount s a = ringLength s a) || s.cpu.latePort.any fun p => decide (p.1 = part) then holdLate s part entry
    else writeLate s part a entry

/-- The partition is resident on the core (R363). -/
def isResident (s : State) (part : BitVec 6) : Bool := decide (part = partOf s) && !s.cpu.away

/-- The partition is resident, and no late ring is before what arrives for it now (R364). -/
def actsNow (s : State) (part : BitVec 6) : Bool := isResident s part && s.cpu.lateRing.isNone

/-- What arrives for a partition and does not act now waits (R363, R364): behind the late ring of the resident
partition, or for one that is not resident. -/
def waitsLate (s : State) (part : BitVec 6) (entry : List Byte) : State :=
  if isResident s part then holdLate s part entry else arriveLate s part entry

/-- A late-ring entry of a decrement: bit 63 of its first word, which no message sets, marks it. [log 34: DESIGN CHOICE] -/
def lateDecrement (n : BitVec 12) (status : BitVec 16) : List Byte :=
  toBytes 8 (2 ^ 63 + status.toNat * 2 ^ 16 + n.toNat) ++ List.replicate 56 0

/-- A late-ring entry of a monitor decrement: bit 61 marks it as well. [log 34: DESIGN CHOICE] -/
def lateMonitor (d : MonitorDecrement) (status : BitVec 16) : List Byte :=
  toBytes 8 (2 ^ 63 + 2 ^ 61 + status.toNat * 2 ^ 16 + d.n.toNat) ++ toBytes 8 (d.line.line.toNat + 2 ^ 37 * d.word.toNat + 2 ^ 41 * d.line.dev.toNat)
    ++ List.replicate 48 0

/-- A PARK request as the message that carries it (R368): bit 62 of its first word marks it. [log 34: DESIGN CHOICE; 35: DESIGN CHOICE] -/
def parkMessage (s : State) (r : ParkRequest) : Message where
  hdr0 := at_ 62 1 ||| at_ 56 3 ||| at_ 2 r.op.toNat ||| at_ 0 r.how.toNat
  hdr1 := hdr1Of s s.cpu.coreId
  body := default

/-! ## PARK requests (R355, R368) -/

/-- The pc of the frame in which the core goes on; its bit 0 is zero (R33). [log 35: DESIGN CHOICE] -/
def setCorePc (s : State) (v : Word) : State := writePc { s with own := { s.own with turn := .core } } (v &&& ~~~ 1)


/-- The core goes on after the instruction at its park address, or at it when its first halfword cannot be
fetched (R368). It waits while the halfword's line is not at hand. -/
def resumeAfter (s : State) (r : ParkRequest) (a : Word) : State :=
  let go := fun (s : State) (n : Nat) => setCorePc { s with cpu := { s.cpu with parked := none, resuming := none } } (a + word n)
  match fetchHalf s (isUser s) (a &&& ~~~ 1).toNat with
  | .ok s h => go s (if h.toNat % 4 = 3 then 4 else 2)
  | .fail s _ _ _ => go s 0
  | .poison s _ => go s 0
  | .wait s => { s with cpu := { s.cpu with resuming := some r } }

/-- A parked core is resumed (R368): HOW 00 at its park address, 01 after the instruction there, 10 in
its trap frame. -/
def resumeParked (s : State) (r : ParkRequest) (a : Word) : State :=
  let s := { s with own := { s.own with turn := .core } }
  let free := { s with cpu := { s.cpu with parked := none } }
  if r.how = 0 then setCorePc free a
  else if r.how = 1 then resumeAfter s r a
  else takeTrapAt free (BitVec.ofNat 8 (field s.cpu.trapCause 0 8)) (if s.cpu.trap.isSome then a else s.cpu.trapPc) s.cpu.trapVal (isIdle s) none

/-- A PARK request of a core of the resident partition acts (R355, R368). [log 35: DESIGN CHOICE] -/
def parkActs (s : State) (r : ParkRequest) : State :=
  match s.cpu.parked with
  | some a => if r.op = 1 && s.cpu.resuming.isNone then resumeParked s r a else s
  | none => if r.op = 2 then (if s.cpu.trap.isSome then { s with cpu := { s.cpu with parkWaits := true } } else parkByRequest s) else s

/-- A PARK request reaches the core: of its partition, or of one that is not resident (R355, R363, R368). -/
def parkArrives (s : State) (r : ParkRequest) : State :=
  if s.cpu.poweredOff then s
  else if actsNow s r.part then parkActs s r
  else waitsLate s r.part (messageBytes (parkMessage s r))

/-- A resume that waited for the line of its park address goes on. -/
def resumeGoesOn (s : State) : State :=
  match s.cpu.resuming, s.cpu.parked with
  | some r, some a => resumeAfter s r a
  | _, _ => { s with cpu := { s.cpu with resuming := none } }

/-- PARK_REQUEST (R368). -/
def execParkRequest (r : ParkRequest) (s : State) : Host.Outcome State Fault Refusal :=
  .next (unlessMinimal s (parkArrives s r))

/-! ## Waiting for a slot (R140, R153, R364) -/

/-- A bounce reaches its sender's core (R153, R384, R386). -/
def placeBounce (s : State) (m : Message) : State :=
  let s := countEvent s 0xE 1
  let s := recordEvent s { kind := 8, unit := 2, lvl := hdrLevel m.hdr0, sub := 0, status := 0, tag := 0, count := 0, info := word (field m.hdr0 0 48) }
  placeMessage s m false

/-- A monitor decrement is applied at the core, whose entry it frees (R268, R384). -/
def applyMonitor (s : State) (d : MonitorDecrement) (status : BitVec 16) : State :=
  countEvent (decrement (freeMonitor s d.line d.word d.n) d.n.toNat status 0) 0xF 1

/-- A slot of a message's kind is free, or it needs none (R139, R140). -/
def messageFits (s : State) (hdr0 : Word) : Bool :=
  decide (23 < hdrLevel hdr0) || (isFlagged hdr0 && decide (0 < freeReserved s)) || decide (0 < freeGeneral s)

/-- The next arrival that waits for the restored partition: of its late ring, or held at the port since the
ring was full or while the ring was being emptied (R364). -/
def nextLate (s : State) (area : Nat) : Option (List Byte) :=
  if 0 < ringCount s area then some (areaBytes s (area + 0x41000 + 64 * (areaWord s (area + 16) % ringLength s area)) 64)
  else (s.cpu.latePort.find? fun p => decide (p.1 = partOf s)).map (·.2)

/-- That arrival has been placed: HEAD advances (R366), or the port gives it up. -/
def takeLate (s : State) (area : Nat) : State :=
  if 0 < ringCount s area then putArea s (partOf s) (area + 16) (toBytes 4 ((areaWord s (area + 16) + 1) % 2 ^ 32))
  else
    match s.cpu.latePort.find? fun p => decide (p.1 = partOf s) with
    | some p => { s with cpu := { s.cpu with latePort := s.cpu.latePort.erase p } }
    | none => s

/-- An arrival that waited for the partition reaches the core at last (R363, R364). -/
def placeLate (s : State) (entry : List Byte) : State :=
  let w := dword entry 0
  let x := dword entry 1
  let n := BitVec.ofNat 12 (field w 0 12)
  let status := BitVec.ofNat 16 (field w 16 16)
  if bit w 63 then
    if bit w 61 then
      applyMonitor s { line := { dev := BitVec.ofNat 8 (field x 41 8), line := BitVec.ofNat 37 (field x 0 37) }, word := BitVec.ofNat 4 (field x 37 4), n := n, part := partOf s } status
    else decrement s n.toNat status 0
  else if bit w 62 then parkActs s { op := BitVec.ofNat 2 (field w 2 2), how := BitVec.ofNat 2 (field w 0 2), part := partOf s }
  else if bit w 54 then placeBounce s (messageOf entry)
  else placeMessage s (messageOf entry) false

/-- An arrival of a late ring can be placed now. -/
def lateFits (s : State) (entry : List Byte) : Bool := bit (dword entry 0) 63 || bit (dword entry 0) 62 || messageFits s (dword entry 0)

/-- Place what waits for the restored partition, in order, as far as slots are free (R364): at most `n`. -/
def placeRing (area : Nat) : Nat → State → State
  | 0, s => s
  | n + 1, s =>
    match nextLate s area with
    | none => { s with cpu := { s.cpu with lateRing := none } }
    | some e => if lateFits s e then placeRing area n (takeLate (placeLate s e) area) else s

/-- The late ring of the restored partition empties as slots free (R364). -/
def admitLate (s : State) : State :=
  match s.cpu.lateRing with
  | some area => placeRing area (ringCount s area + s.cpu.latePort.length + 1) s
  | none => s

/-- Messages that wait at the port take the slots that have freed, in order (R140), after those of a late
ring (R364). -/
def admitWaiting (s : State) : State :=
  let s := admitLate s
  if s.cpu.lateRing.isSome then s
  else
    s.cpu.port.foldl (fun s p =>
      if messageFits s p.m.hdr0 then placeMessage { s with cpu := { s.cpu with port := s.cpu.port.erase p } } p.m p.own else s) s

end Sys2Proof.Machine
end

