-- ==== Sys2Proof/Machine/Csr.lean ====
section
/-! DEFINITION. The control registers (R28 and the rules that name each): their access codes (R22),
their values, and the effect of writing each. -/

namespace Sys2Proof.Machine

/-- A control-register number that the manual assigns (R28). -/
def csrAssigned (n : Nat) : Bool :=
  decide (n ≤ 4) || decide (n = 8) || (decide (0x10 ≤ n) && decide (n ≤ 0x12)) || (decide (0x20 ≤ n) && decide (n ≤ 0x22))
    || decide (n = 0x30) || (decide (0x34 ≤ n) && decide (n ≤ 0x37)) || (decide (0x40 ≤ n) && decide (n ≤ 0x51))
    || (decide (0x53 ≤ n) && decide (n ≤ 0x55)) || (decide (0x58 ≤ n) && decide (n ≤ 0x62))
    || (decide (0x70 ≤ n) && decide (n ≤ 0x7F)) || (decide (0x100 ≤ n) && decide (n ≤ 0x13F))

/-- Every field, reserved ones aside, is marked S: a user-mode CSRR traps PRIV (R22). CNT0 to CNT7
are open to user mode under UREAD (R384). -/
def csrHidden (s : State) (n : Nat) : Bool :=
  (decide (0x20 ≤ n) && decide (n ≤ 0x22)) || [0x42, 0x43, 0x44, 0x47, 0x48, 0x4E, 0x50, 0x51, 0x70, 0x71, 0x72, 0x74, 0x75].contains n
    || (decide (0x78 ≤ n) && decide (n ≤ 0x7F) && !bit s.cpu.cntcfg 40) || (decide (0x100 ≤ n) && decide (n ≤ 0x13F))

/-- Some field is marked S: a user-mode CSRW traps PRIV (R22). -/
def csrGuarded (n : Nat) : Bool :=
  (decide (0x20 ≤ n) && decide (n ≤ 0x22)) || [0x40, 0x42, 0x43, 0x44, 0x47, 0x48, 0x4D, 0x4E, 0x50, 0x51, 0x70, 0x71, 0x72, 0x74, 0x75].contains n
    || (decide (0x78 ≤ n) && decide (n ≤ 0x7F)) || (decide (0x100 ≤ n) && decide (n ≤ 0x13F))

/-- Some field is marked RW or W1C (R95). -/
def csrWritable (n : Nat) : Bool :=
  decide (n = 4) || (decide (0x20 ≤ n) && decide (n ≤ 0x22)) || (decide (0x34 ≤ n) && decide (n ≤ 0x37))
    || [0x40, 0x42, 0x43, 0x44, 0x47, 0x48, 0x4C, 0x4D, 0x50, 0x51, 0x70, 0x71, 0x72, 0x74, 0x75].contains n
    || (decide (0x78 ≤ n) && decide (n ≤ 0x7F)) || (decide (0x100 ≤ n) && decide (n ≤ 0x13F))

/-- PEND of INBOX (R142): the levels with a waiting entry. -/
def pendingLevels (s : State) : BitVec 24 :=
  maskOf 24 ((List.range 24).filter fun p => !(s.cpu.queues.get p).isEmpty)

/-- The value of INBOX (R142). -/
def inboxWord (s : State) : Word :=
  at_ 41 (bnat s.cpu.badMsg) ||| at_ 40 (bnat s.cpu.dcLost) ||| at_ 16 (pendingLevels s).toNat
    ||| at_ 8 (freeGeneral s) ||| at_ 0 (freeReserved s)

/-- USED of TAGARMS (R172) and of MONS (R270). -/
def usedArms (s : State) : Word := zextField (maskOf 8 ((List.range 8).filter fun i => (s.cpu.arms.get i).isSome))
/-- USED of MONS. -/
def usedMonitors (s : State) : Word := zextField (maskOf 16 ((List.range 16).filter fun i => (s.cpu.monitors.get i).isSome))

/-- The value that a CSRR of register `n` reads (R28, R95). -/
def csrRead (s : State) (n : Nat) : Word :=
  match n with
  | 0x000 => statusWord s
  | 0x001 => thrWord s
  | 0x002 => levelWord s
  | 0x003 => word s.cpu.claims.length
  | 0x004 => readFpctl s
  | 0x008 => s.cpu.tags
  | 0x010 => if s.cpu.synced then s.cpu.time else 0
  | 0x011 => s.cpu.cyc
  | 0x012 => s.cpu.retired
  | 0x020 => s.cpu.trapCause
  | 0x021 => s.cpu.trapPc
  | 0x022 => s.cpu.trapVal
  | 0x030 => zextField s.cpu.coreId
  | 0x034 => readSc s 0
  | 0x035 => readSc s 1
  | 0x036 => readSc s 2
  | 0x037 => readSc s 3
  | 0x040 => inboxWord s
  | 0x041 => msgInfoWord s
  | 0x042 => s.cpu.scrcfg
  | 0x043 => s.cpu.dcbase
  | 0x044 => s.cpu.dacbase
  | 0x045 => usedArms s
  | 0x046 => s.cpu.vflane
  | 0x047 => s.cpu.stashcfg
  | 0x048 => s.cpu.xroot
  | 0x049 => s.cpu.xfstat
  | 0x04A => s.cpu.raceinfo
  | 0x04B => usedMonitors s
  | 0x04C => s.cpu.engstat
  | 0x04D => s.cpu.mfault
  | 0x04E => s.cpu.mfpc
  | 0x04F => taskIdWord s
  | 0x050 => s.cpu.tvec
  | 0x051 => s.cpu.tscr
  | 0x053 => s.cpu.partid
  | 0x054 => s.cpu.fhand
  | 0x055 => s.cpu.keymask
  | 0x060 => s.cpu.slat
  | 0x061 => s.cpu.slcfg
  | 0x062 => s.cpu.slkeep
  | 0x070 => s.cpu.cntcfg
  | 0x071 => s.cpu.pcscfg
  | 0x072 => s.cpu.pcsbase
  | 0x073 => s.cpu.pcsidx
  | 0x074 => s.cpu.evbase
  | 0x075 => s.cpu.evcfg
  | 0x076 => s.cpu.evidx
  | 0x077 => s.cpu.peatcfg
  | n =>
    if 0x58 ≤ n && decide (n ≤ 0x5F) then s.cpu.prect.get (n - 0x58)
    else if 0x78 ≤ n && decide (n ≤ 0x7F) then s.cpu.cnt.get (n - 0x78)
    else if 0x100 ≤ n && decide (n ≤ 0x13F) then s.cpu.ceil.get (n - 0x100)
    else 0

/-! ## Placement of the regions of local memory (R202) -/

/-- A region of local addresses: first and last plus one. -/
abbrev Span := Nat × Nat

/-- Two regions overlap. -/
def Span.meets (x y : Span) : Bool := decide (x.1 < y.2) && decide (y.1 < x.2)

/-- The scratch area that a value of SCRCFG places (R146). -/
def scratchSpan (v : Word) : Span :=
  let b := field v 12 8 * 4096
  (b, b + 24 * (256 * 2 ^ field v 0 4) + 6144)

/-- The counter page (R150). -/
def counterSpan (v : Word) : Span :=
  let b := field v 13 7 * 0x2000
  if b = 0 then (0, 0) else (b, b + 73728)

/-- The delay-account table (R157): it is placed while EN = 1. -/
def delaySpan (v : Word) : Span :=
  let b := field v 15 5 * 0x8000
  if bit v 0 then (b, b + 0x8000) else (0, 0)

/-- The stash region that a value of STASHCFG places (R203): none while SIZE is 0. -/
def stashRegion (v : Word) : Span :=
  let b := field v 4 4 * 0x10000
  if field v 0 4 = 0 then (0, 0) else (b, b + field v 0 4 * 0x10000)

/-- The stash would overlap another region (R202). -/
def stashOverlaps (stash scr dc dac : Word) : Bool :=
  let r := stashRegion stash
  decide (field stash 0 4 ≠ 0) &&
    (r.meets (0, 0x800) || r.meets (scratchSpan scr) || r.meets (counterSpan dc) || r.meets (delaySpan dac))

/-- A CSRW of this value traps ILLEGAL and changes nothing. -/
def csrRefused (s : State) (n : Nat) (v : Word) : Bool :=
  match n with
  | 0x042 =>
    decide (7 < field v 0 4) || decide (field v 12 8 = 0) || decide (0x100000 < (scratchSpan v).2)
      || stashOverlaps s.cpu.stashcfg v s.cpu.dcbase s.cpu.dacbase
  | 0x043 => decide (0x100000 < (counterSpan v).2) || stashOverlaps s.cpu.stashcfg s.cpu.scrcfg v s.cpu.dacbase
  | 0x044 => (bit v 0 && decide (field v 15 5 = 0)) || stashOverlaps s.cpu.stashcfg s.cpu.scrcfg s.cpu.dcbase v
  | 0x047 =>
    decide (8 < field v 0 4) || decide (16 < field v 4 4 + field v 0 4) || (decide (field v 0 4 ≠ 0) && decide (field v 4 4 = 0))
      || stashOverlaps v s.cpu.scrcfg s.cpu.dcbase s.cpu.dacbase
  | 0x071 => bit v 5 && (decide (field v 0 5 < 8) || decide (24 < field v 0 5))
  | 0x072 | 0x074 => decide (8 < field v 0 4) || decide (field v 16 39 < 0x10000)
  | n => decide (0x100 ≤ n) && decide (n ≤ 0x13F) && bit v 7 && decide (23 < field v 0 5)

/-- The stash region of a core of the cluster holds stash data from now on (R205). [log 19: DESIGN CHOICE] -/
def occupyRegion (s : State) (c : Nat) : State :=
  if stashcfgOf s c % 16 = 0 then s else forget s (stashSpanOf s c).1 (stashSpanOf s c).2 true

/-- A CSRW of STASHCFG that changes it flushes and invalidates the whole stash, then places it anew
(R203, R264). What the lines left in the old region is not known, nor where they stand in the new one (R205). [log 19: DESIGN CHOICE] -/
def placeStash (s : State) (v : Word) : State :=
  let v := v &&& 0xFF
  if v = s.cpu.stashcfg then s
  else
    let s := s.mem.stash.foldl evictLine s
    let s := forget s (stashSpan s).1 (stashSpan s).2 false
    occupyRegion { s with cpu := { s.cpu with stashcfg := v }, mem := { s.mem with plru := [] } } (coreIndex s.cpu.coreId)

/-- FPCTL after a CSRW (R31): a reserved rounding mode leaves RM. -/
def fpctlWrite (old v : Word) : Word :=
  masked old v (if 5 ≤ field v 0 3 then 0x3E0 else 0x3E7)

/-- The effect of a CSRW of register `n` (R7, R28): reserved and read-only fields keep their value,
a 1 clears a W1C field. -/
def csrWrite (s : State) (n : Nat) (v : Word) : State :=
  match n with
  | 0x004 => writeFpctl { s with cpu := { s.cpu with bankPoison := s.cpu.bankPoison.set (128 * level s + 76) false } } (fpctlWrite (readFpctl s) v)
  | 0x020 => { s with cpu := { s.cpu with trapCause := v &&& 0xFF } }
  | 0x021 => { s with cpu := { s.cpu with trapPc := v } }
  | 0x022 => { s with cpu := { s.cpu with trapVal := v } }
  | 0x040 => { s with cpu := { s.cpu with badMsg := s.cpu.badMsg && !bit v 41, dcLost := s.cpu.dcLost && !bit v 40 } }
  | 0x042 => { s with cpu := { s.cpu with scrcfg := v &&& 0xFF00F } }
  | 0x043 => { s with cpu := { s.cpu with dcbase := v &&& 0xFE000 } }
  | 0x044 => { s with cpu := { s.cpu with dacbase := v &&& 0xF8001 } }
  | 0x047 => placeStash s v
  | 0x048 => { s with cpu := { s.cpu with xroot := v &&& 0xFFFFFFF0001 } }
  | 0x04C => if bit v 0 then { s with cpu := { s.cpu with engstat := withField s.cpu.engstat 0 1 0 } } else s
  | 0x04D => { s with cpu := { s.cpu with mfault := masked s.cpu.mfault v (at_ 63 1) } }
  | 0x050 => { s with cpu := { s.cpu with tvec := v &&& 0xFFFFFFFFFFF9 } }
  | 0x051 => { s with cpu := { s.cpu with tscr := v } }
  | 0x070 => { s with cpu := { s.cpu with cntcfg := v &&& 0x1FFFFFFFFFF } }
  | 0x071 => { s with cpu := { s.cpu with pcscfg := v &&& 0x3F } }
  | 0x072 => { s with cpu := { s.cpu with pcsbase := v &&& 0x7FFFFFFFFF000F } }
  | 0x074 => { s with cpu := { s.cpu with evbase := v &&& 0x7FFFFFFFFF000F } }
  | 0x075 => { s with cpu := { s.cpu with evcfg := v &&& 0xF } }
  | n =>
    if 0x34 ≤ n && decide (n ≤ 0x37) then
      { s with cpu := { s.cpu with sc := s.cpu.sc.set (4 * level s + (n - 0x34)) (v &&& 0x1FF0FFFFF), bankPoison := s.cpu.bankPoison.set (128 * level s + 72 + (n - 0x34)) false } }
    else if 0x78 ≤ n && decide (n ≤ 0x7F) then { s with cpu := { s.cpu with cnt := s.cpu.cnt.set (n - 0x78) v } }
    else if 0x100 ≤ n && decide (n ≤ 0x13F) then { s with cpu := { s.cpu with ceil := s.cpu.ceil.set (n - 0x100) (v &&& 0x9F) } }
    else s

end Sys2Proof.Machine
end

