-- ==== Sys2Proof/Machine/Service.lean ====
section
/-! DEFINITION. The shared operations of the Sedge processors and of the command front end: runtime
traps and the end of an invocation (R424, R426), completion records and interrupts (R435, R448), and
the end of a queue program (R441). -/

namespace Sys2Proof.Machine

/-! ## Sedge processors -/

/-- The key of an invocation's flow. -/
def flowKey (i : Invocation) : FlowKey := { part := i.cls.part, cls := i.cls.cls, fid := i.fid }

/-- Word 0 of a record. -/
def recordWord (r : FlowRecord) : Word := wordOf ((List.range 8).map r.data.get)

/-- The flow records that stay; with a record that is freed its timer goes, and a firing that waits (R424, R425). -/
def withRecords (s : State) (rs : List FlowRecord) : State :=
  { s with fab := { s.fab with
    records := rs
    waiting := s.fab.waiting.filter fun w => match w with
      | .timeout k => rs.any fun r => decide (r.key = k)
      | .packet _ _ => true } }

/-- The end of an invocation: its packet's buffer is freed, its record is freed when record word 0 is
zero, and the processor is free (R419, R424). -/
def endInvocation (s : State) (n : Nat) (i : Invocation) : State :=
  let s := match i.packet with
    | some p => freeBuffer s i.origin p
    | none => s
  let gone := fun (r : FlowRecord) => decide (r.key = flowKey i) && decide (recordWord r = 0)
  let s := withRecords s (s.fab.records.filter fun r => !(gone r))
  { s with
    fab := { s.fab with sedge := s.fab.sedge.set n none }
    own := { s.own with turn := if s.own.turn = .sedge n then .core else s.own.turn } }

/-- A runtime trap (R426): it ends the invocation, discards its packet and messages OWNER. [log 63: DEDUCED] -/
def kernelTrap (s : State) (n : Nat) (reason : Nat) (val : Word) : State :=
  match s.fab.sedge.get n with
  | none => s
  | some i =>
    let sender := deviceSender s 0xFE
    let hdr0 := at_ 56 3 ||| at_ 55 1 ||| at_ 48 22 ||| at_ 0 i.cls.ohand.toNat
    let origin := match i.packet with
      | some p => word (p.sdev.toNat * 1024 + p.sport.toNat)
      | none => 0
    let m : Message := { hdr0 := hdr0, hdr1 := hdr1Of s sender, body := { p0 := at_ 0 reason ||| at_ 8 i.cls.cls.toNat ||| at_ 16 n, p1 := i.pc, p2 := val, p3 := i.fid, p4 := origin, p5 := s.cpu.time } }
    endInvocation (switchSends s .own (messagePacket s i.cls.owner m 3 cfePort i.cls.part false)) n i

/-! ## Completion records and interrupts -/

/-- A packet from the device to the host (R431). -/
def hostPacket (type : Nat) (addr : Word) (body : List Byte) : HtlPacket :=
  { type := BitVec.ofNat 6 type, part := 0, stat := 0, tid := 0, len := BitVec.ofNat 9 body.length, rsvd := false, addr := addr, body := body }

/-- Packets to the host leave in the order of issue (R432). -/
def toHost (s : State) (p : HtlPacket) : State :=
  { s with cfe := { s.cfe with toHost := s.cfe.toHost ++ [p] } }

/-- Write host memory, at most 256 bytes a packet (R432). -/
def hostWrite (s : State) (addr : Word) (body : List Byte) : State := toHost s (hostPacket 8 addr body)

/-- Replace a queue. -/
def setQueue (s : State) (q : Nat) (x : Option Queue) : State :=
  { s with cfe := { s.cfe with queues := s.cfe.queues.set q x } }

/-- The interrupt message of a queue (R432, R448). -/
def interrupt (s : State) (q : Nat) (x : Queue) : State :=
  let w := at_ 0 x.vec.toNat ||| at_ 16 q ||| at_ 32 (x.written % 2 ^ 32)
  setQueue (toHost s (hostPacket 0x0A 0 (toBytes 8 w.toNat))) q (some { x with unreported := 0 })

/-- Write one completion record (R435), and the interrupt that it raises (R448): the record precedes
the interrupt. -/
def complete (s : State) (q : Nat) (tag : BitVec 32) (status : Nat) (value : Word) : State :=
  match s.cfe.queues.get q with
  | none => s
  | some x =>
    let w0 := at_ 48 status ||| at_ 32 q ||| zextField tag
    let s := hostWrite s (x.pring + word (16 * (x.written % 2 ^ x.elog))) (toBytes 8 w0.toNat ++ toBytes 8 value.toNat)
    let x := { x with written := x.written + 1, unreported := x.unreported + 1, oldest := if x.unreported = 0 then s.cfe.age else x.oldest }
    let s := setQueue s q (some x)
    if s.cfe.hold = 0 || decide (max 1 s.cfe.coalesce.toNat ≤ x.unreported) then interrupt s q x else s

/-- A command of a queue that has launched a gang ends, unless it has ended before: its one completion record (R435,
R443, R445). [log 65: DEDUCED] -/
def completeOwed (s : State) (q index : Nat) (tag : BitVec 32) (status : Nat) (value : Word) : State :=
  match s.cfe.queues.get q with
  | none => s
  | some x =>
    if x.owed.contains index then complete (setQueue s q (some { x with owed := x.owed.erase index })) q tag status value else s

/-- The TAG of a command (R433). -/
def commandTag (c : List Byte) : BitVec 32 := BitVec.ofNat 32 (ofBytes (c.take 4))

/-- The end of a queue program's invocation with a status and a value (R441): its command completes, unless its gang
has ended or is to end with its record (R435, R445), and its slot and its queue are free. [log 65: DEDUCED] -/
def endProgram (s : State) (n : Nat) (r : QpRun) (status : Nat) (value : Word) : State :=
  let tag := commandTag r.command
  let s :=
    if !r.launched then complete s r.queue tag status value
    else if status = 3 then completeOwed s r.queue (((s.cfe.queues.get r.queue).map (·.taken)).getD 0) tag status value
    else s
  let s := match s.cfe.queues.get r.queue with
    | some x => setQueue s r.queue (some { x with busy := false, taken := x.taken + 1 })
    | none => s
  let s := setSlot s n none
  { s with own := { s.own with turn := if s.own.turn = .cfe n then .core else s.own.turn } }

/-- A run-time error of a queue program: QPFAULT (R437, R441). [log 63: DEDUCED] -/
def queueFault (s : State) (n : Nat) : State :=
  match s.cfe.slots.get n with
  | some r => endProgram s n r 3 0
  | none => s

/-- A queue program that reaches its end, `jal x0, .` (R440, R441). -/
def queueEnd (s : State) (n : Nat) : State :=
  match s.cfe.slots.get n with
  | some r =>
    let x5 := r.x.get 5
    endProgram s n r (if field x5 0 16 = 0 then 0 else 0x8000 + field x5 0 15) (r.x.get 6)
  | none => s

end Sys2Proof.Machine
end

