-- ==== Sys2Proof/Machine/Run.lean ====
section
/-! DEFINITION. Running one instruction: the registers it names and reads, the checks of R59 that
precede its own effect, and the four ways in which its effect ends. -/

namespace Sys2Proof.Machine

/-- The general registers that an instruction names, the second register of a pair included (R16, R254). -/
def namedRegs (i : Instr) : List Reg :=
  match i with
  | .add d a b | .sub d a b | .mul d a b | .mulh d a b | .mulhu d a b | .div d a b | .divu d a b
    | .rem d a b | .remu d a b | .and d a b | .or d a b | .xor d a b | .andn d a b | .shl d a b
    | .shr d a b | .sra d a b | .rot d a b | .min d a b | .max d a b | .minu d a b | .maxu d a b
    | .slt d a b | .sltu d a b | .sel d a b | .bext d a b | .bins d a b | .lea d a b _ | .fadd d a b _ _
    | .fsub d a b _ _ | .fmul d a b _ _ | .fdiv d a b _ _ | .fmin d a b _ | .fmax d a b _ | .fcmp d a b _ _
    | .fsgn d a b _ | .fsgnn d a b _ | .fsgnx d a b _ | .spawn d a b | .amoadd d a b _ _
    | .amoand d a b _ _ | .amoor d a b _ _ | .amoxor d a b _ _ | .amomin d a b _ _ | .amomax d a b _ _
    | .amominu d a b _ _ | .amomaxu d a b _ _ | .amoswp d a b _ _ | .cas d a b _ _ | .monarm d a b => [d, a, b]
  | .clz d a | .ctz d a | .popc d a | .addImm d a _ | .sltImm d a _ | .sltuImm d a _ | .andImm d a _
    | .orImm d a _ | .xorImm d a _ | .shli d a _ | .shri d a _ | .srai d a _ | .roti d a _ | .jalr d a _
    | .ldb d a _ | .ldh d a _ | .ldw d a _ | .ldd d a _ | .ldbu d a _ | .ldhu d a _ | .ldwu d a _
    | .addK d a _ | .subK d a _ | .mulK d a _ | .andK d a _ | .orK d a _ | .xorK d a _ | .faddK d a _ _
    | .fmulK d a _ _ | .ffmaK d a _ _ | .fsubK d a _ _ | .fsqrt d a _ _ | .fclass d a _ | .fcvt d a _ _ _
    | .ldacq d a _ | .cshp d a | .tagtst d a | .tagff d a | .gdraw d a _ | .ldhs d a _ | .grq d a _ => [d, a]
  | .lih d _ | .addpc d _ | .jal d _ | .ldk d _ | .mfe d _ | .fli d _ | .faddi d _ | .fmuli d _ | .csrr d _
    | .barq d _ | .loopb d _ _ | .cAddi d _ | .cLi d _ | .cShli d _ | .cShri d _ | .cSrai d _ | .cAndi d _
    | .cLddSp d _ | .cStdSp d _ | .cLdk d _ => [d]
  | .beq a b _ | .bne a b _ | .blt a b _ | .bge a b _ | .bltu a b _ | .bgeu a b _ | .send a b _
    | .dcset a b | .tagarmAny a b | .tagarmAll a b | .redadd a b _ _ | .strel a b _ | .sflush a b
    | .sinv a b | .spf a b | .copy a b _ | .accvt _ a b | .tlbinv a b | .pktemit a b | .launch a b => [a, b]
  | .dbnz a _ | .ldx _ a _ | .stx _ a _ | .mte _ a | .csrw a _ | .claim a | .dcdec a | .bari a _
    | .barv a _ | .mondis a | .tagclr a | .acld _ a | .acst _ a | .gset a _ | .gget a _ | .grdef a _
    | .grbc a _ | .park a | .ctxsv a | .ctxrs a | .pktfwd a | .signal a | .parkq a | .cJr a | .cBeqz a _
    | .cBnez a _ | .cDbnz a _ => [a]
  | .stb s a _ | .sth s a _ | .stw s a _ | .std s a _ => [s, a]
  | .ffma d a b c _ _ => [d, a, b, c]
  | .cas2 d a b _ => [d, d + 1, a, b, b + 1]
  | .vbcast _ a _ _ | .vld _ a _ _ | .vst _ a _ _ | .vgath _ a _ _ _ | .vscat _ a _ _ _ => [a.zeroExtend 5]
  | .vmovx d _ b _ => [d.zeroExtend 5, b.zeroExtend 5]
  | .vmpopc d _ => [d.zeroExtend 5]
  | .vgen _ _ b _ _ => [b.zeroExtend 5]
  | .vlds _ a b _ _ | .vsts _ a b _ _ => [a.zeroExtend 5, b.zeroExtend 5]
  | .cMv a d | .cAdd a d | .cSub a d | .cAnd a d | .cOr a d | .cXor a d | .cJalr a d | .cLdd a d
    | .cStd a d | .cLdw a d | .cStw a d => [a, d]
  | _ => []

/-- The general registers that an instruction reads. -/
def sourceRegs (i : Instr) : List Reg :=
  match i with
  | .add _ a b | .sub _ a b | .mul _ a b | .mulh _ a b | .mulhu _ a b | .div _ a b | .divu _ a b
    | .rem _ a b | .remu _ a b | .and _ a b | .or _ a b | .xor _ a b | .andn _ a b | .shl _ a b
    | .shr _ a b | .sra _ a b | .rot _ a b | .min _ a b | .max _ a b | .minu _ a b | .maxu _ a b
    | .slt _ a b | .sltu _ a b | .bext _ a b | .lea _ a b _ | .beq a b _ | .bne a b _ | .blt a b _
    | .bge a b _ | .bltu a b _ | .bgeu a b _ | .fadd _ a b _ _ | .fsub _ a b _ _ | .fmul _ a b _ _
    | .fdiv _ a b _ _ | .fmin _ a b _ | .fmax _ a b _ | .fcmp _ a b _ _ | .fsgn _ a b _ | .fsgnn _ a b _
    | .fsgnx _ a b _ | .send a b _ | .spawn _ a b | .dcset a b | .tagarmAny a b | .tagarmAll a b
    | .amoadd _ a b _ _ | .amoand _ a b _ _ | .amoor _ a b _ _ | .amoxor _ a b _ _ | .amomin _ a b _ _
    | .amomax _ a b _ _ | .amominu _ a b _ _ | .amomaxu _ a b _ _ | .amoswp _ a b _ _ | .redadd a b _ _
    | .strel a b _ | .sflush a b | .sinv a b | .spf a b | .monarm _ a b | .copy a b _ | .accvt _ a b
    | .tlbinv a b | .pktemit a b | .launch a b => [a, b]
  | .clz _ a | .ctz _ a | .popc _ a | .addImm _ a _ | .sltImm _ a _ | .sltuImm _ a _ | .andImm _ a _
    | .orImm _ a _ | .xorImm _ a _ | .shli _ a _ | .shri _ a _ | .srai _ a _ | .roti _ a _ | .dbnz a _
    | .jalr _ a _ | .ldb _ a _ | .ldh _ a _ | .ldw _ a _ | .ldd _ a _ | .ldbu _ a _ | .ldhu _ a _
    | .ldwu _ a _ | .addK _ a _ | .subK _ a _ | .mulK _ a _ | .andK _ a _ | .orK _ a _ | .xorK _ a _
    | .faddK _ a _ _ | .fmulK _ a _ _ | .fsubK _ a _ _ | .ldx _ a _ | .stx _ a _ | .mte _ a
    | .fsqrt _ a _ _ | .fclass _ a _ | .fcvt _ a _ _ _ | .csrw a _ | .claim a | .dcdec a | .bari a _
    | .barv a _ | .ldacq _ a _ | .mondis a | .cshp _ a | .tagtst _ a | .tagff _ a | .tagclr a | .acld _ a
    | .acst _ a | .gset a _ | .gget a _ | .gdraw _ a _ | .grdef a _ | .grbc a _ | .ldhs _ a _ | .grq _ a _
    | .park a | .ctxsv a | .ctxrs a | .pktfwd a | .signal a | .parkq a | .cMv a _ | .cJr a | .cJalr a _
    | .cLdd a _ | .cLdw a _ | .cBeqz a _ | .cBnez a _ | .cDbnz a _ => [a]
  | .sel d a b | .bins d a b | .cas d a b _ _ => [d, a, b]
  | .stb s a _ | .sth s a _ | .stw s a _ | .std s a _ => [s, a]
  | .ffmaK d a _ _ => [d, a]
  | .faddi d _ | .fmuli d _ | .loopb d _ _ | .cAddi d _ | .cShli d _ | .cShri d _ | .cSrai d _ | .cAndi d _ => [d]
  | .ffma _ a b c _ _ => [a, b, c]
  | .cas2 d a b _ => [d, d + 1, a, b, b + 1]
  | .vbcast _ a _ _ | .vld _ a _ _ | .vst _ a _ _ | .vgath _ a _ _ _ | .vscat _ a _ _ _ => [a.zeroExtend 5]
  | .vmovx _ _ b _ | .vgen _ _ b _ _ => [b.zeroExtend 5]
  | .vlds _ a b _ _ | .vsts _ a b _ _ => [a.zeroExtend 5, b.zeroExtend 5]
  | .cLddSp _ _ => [2]
  | .cStdSp d _ => [d, 2]
  | .cAdd a d | .cSub a d | .cAnd a d | .cOr a d | .cXor a d | .cStd a d | .cStw a d => [a, d]
  | _ => []

/-- The vector instructions, which need VEC of the frame (R20). -/
def isVector (i : Instr) : Bool :=
  match i with
  | .vadd _ _ _ _ _ | .vsub _ _ _ _ _ | .vmul _ _ _ _ _ | .vfma _ _ _ _ _ | .vdiv _ _ _ _ _
    | .vmin _ _ _ _ _ | .vmax _ _ _ _ _ | .vabs _ _ _ _ | .vand _ _ _ _ _ | .vor _ _ _ _ _
    | .vxor _ _ _ _ _ | .vshl _ _ _ _ _ | .vshr _ _ _ _ _ | .vsra _ _ _ _ _ | .vadds _ _ _ _ _
    | .vsubs _ _ _ _ _ | .vcmpeq _ _ _ _ _ | .vcmplt _ _ _ _ _ | .vcmple _ _ _ _ _ | .vcmpltu _ _ _ _ _
    | .vsel _ _ _ _ _ | .vcvt _ _ _ _ _ | .vperm _ _ _ _ _ | .vbcast _ _ _ _ | .vidx _ _ _ | .vmovx _ _ _ _
    | .vredadd _ _ _ _ | .vredmin _ _ _ _ | .vredmax _ _ _ _ | .vmand _ _ _ | .vmor _ _ _ | .vmxor _ _ _
    | .vmpopc _ _ | .vgen _ _ _ _ _ | .vld _ _ _ _ | .vst _ _ _ _ | .vlds _ _ _ _ _ | .vsts _ _ _ _ _
    | .vgath _ _ _ _ _ | .vscat _ _ _ _ _ => true
  | _ => false

/-- The matrix-engine instructions, which need MAT of the frame (R20, R54). -/
def isMatrix (i : Instr) : Bool :=
  match i with
  | .mma _ _ | .mmac _ _ _ | .acld _ _ | .acst _ _ | .acz _ | .accvt _ _ _ => true
  | _ => false

/-- The supervisor-only instructions (R58). -/
def isSupervisorOnly (i : Instr) : Bool :=
  match i with
  | .tret | .park _ | .ctxsv _ | .ctxrs _ | .tlbinv _ _ => true
  | _ => false

/-- The BOUND major and LOOPB, which exist only in the bounded profile (R58). -/
def isBounded (i : Instr) : Bool :=
  match i with
  | .pktemit _ _ | .pktfwd _ | .pktdrop | .signal _ | .parkq _ | .launch _ _ | .loopb _ _ _ => true
  | _ => false

/-- The 16-bit instructions (R43). -/
def isShort (i : Instr) : Bool :=
  match i with
  | .cAddi _ _ | .cLi _ _ | .cShli _ _ | .cShri _ _ | .cSrai _ _ | .cAndi _ _ | .cLddSp _ _ | .cStdSp _ _
    | .cMv _ _ | .cAdd _ _ | .cSub _ _ | .cAnd _ _ | .cOr _ _ | .cXor _ _ | .cJr _ | .cJalr _ _ | .cLdd _ _
    | .cStd _ _ | .cLdw _ _ | .cStw _ _ | .cTend | .cNop | .cBrk | .cBeqz _ _ | .cBnez _ _ | .cJ _
    | .cDbnz _ _ | .cLdk _ _ => true
  | _ => false

/-- The instructions of the Sedge column of R413. -/
def inKernel (i : Instr) : Bool :=
  match i with
  | .add _ _ _ | .sub _ _ _ | .mul _ _ _ | .mulh _ _ _ | .mulhu _ _ _ | .div _ _ _ | .divu _ _ _
    | .rem _ _ _ | .remu _ _ _ | .and _ _ _ | .or _ _ _ | .xor _ _ _ | .andn _ _ _ | .shl _ _ _
    | .shr _ _ _ | .sra _ _ _ | .rot _ _ _ | .min _ _ _ | .max _ _ _ | .minu _ _ _ | .maxu _ _ _
    | .slt _ _ _ | .sltu _ _ _ | .clz _ _ | .ctz _ _ | .popc _ _ | .sel _ _ _ | .bext _ _ _ | .bins _ _ _
    | .lea _ _ _ _ | .addImm _ _ _ | .sltImm _ _ _ | .sltuImm _ _ _ | .andImm _ _ _ | .orImm _ _ _
    | .xorImm _ _ _ | .shli _ _ _ | .shri _ _ _ | .srai _ _ _ | .roti _ _ _ | .lih _ _ | .beq _ _ _
    | .bne _ _ _ | .blt _ _ _ | .bge _ _ _ | .bltu _ _ _ | .bgeu _ _ _ | .jal _ _ | .ldb _ _ _ | .ldh _ _ _
    | .ldw _ _ _ | .ldd _ _ _ | .ldbu _ _ _ | .ldhu _ _ _ | .ldwu _ _ _ | .stb _ _ _ | .sth _ _ _
    | .stw _ _ _ | .std _ _ _ | .fli _ _ | .faddi _ _ | .fmuli _ _ | .fadd _ _ _ _ _ | .fsub _ _ _ _ _
    | .fmul _ _ _ _ _ | .fdiv _ _ _ _ _ | .fsqrt _ _ _ _ | .fmin _ _ _ _ | .fmax _ _ _ _ | .fcmp _ _ _ _ _
    | .fclass _ _ _ | .fsgn _ _ _ _ | .fsgnn _ _ _ _ | .fsgnx _ _ _ _ | .fcvt _ _ _ _ _ | .ffma _ _ _ _ _ _
    | .nop | .vadd _ _ _ _ _ | .vsub _ _ _ _ _ | .vmul _ _ _ _ _ | .vfma _ _ _ _ _ | .vdiv _ _ _ _ _
    | .vmin _ _ _ _ _ | .vmax _ _ _ _ _ | .vabs _ _ _ _ | .vand _ _ _ _ _ | .vor _ _ _ _ _
    | .vxor _ _ _ _ _ | .vshl _ _ _ _ _ | .vshr _ _ _ _ _ | .vsra _ _ _ _ _ | .vadds _ _ _ _ _
    | .vsubs _ _ _ _ _ | .vcmpeq _ _ _ _ _ | .vcmplt _ _ _ _ _ | .vcmple _ _ _ _ _ | .vcmpltu _ _ _ _ _
    | .vsel _ _ _ _ _ | .vcvt _ _ _ _ _ | .vperm _ _ _ _ _ | .vbcast _ _ _ _ | .vidx _ _ _ | .vmovx _ _ _ _
    | .vredadd _ _ _ _ | .vredmin _ _ _ _ | .vredmax _ _ _ _ | .vmand _ _ _ | .vmor _ _ _ | .vmxor _ _ _
    | .vmpopc _ _ | .vld _ _ _ _ | .vst _ _ _ _ | .vlds _ _ _ _ _ | .vsts _ _ _ _ _ | .vgath _ _ _ _ _
    | .vscat _ _ _ _ _ | .pktemit _ _ | .pktfwd _ | .pktdrop | .loopb _ _ _ => true
  | _ => false

/-- The instructions of the queue-program column of R413. -/
def inProgram (i : Instr) : Bool :=
  match i with
  | .add _ _ _ | .sub _ _ _ | .mul _ _ _ | .mulh _ _ _ | .mulhu _ _ _ | .div _ _ _ | .divu _ _ _
    | .rem _ _ _ | .remu _ _ _ | .and _ _ _ | .or _ _ _ | .xor _ _ _ | .andn _ _ _ | .shl _ _ _
    | .shr _ _ _ | .sra _ _ _ | .rot _ _ _ | .min _ _ _ | .max _ _ _ | .minu _ _ _ | .maxu _ _ _
    | .slt _ _ _ | .sltu _ _ _ | .clz _ _ | .ctz _ _ | .popc _ _ | .sel _ _ _ | .bext _ _ _ | .bins _ _ _
    | .lea _ _ _ _ | .addImm _ _ _ | .sltImm _ _ _ | .sltuImm _ _ _ | .andImm _ _ _ | .orImm _ _ _
    | .xorImm _ _ _ | .shli _ _ _ | .shri _ _ _ | .srai _ _ _ | .roti _ _ _ | .lih _ _ | .beq _ _ _
    | .bne _ _ _ | .blt _ _ _ | .bge _ _ _ | .bltu _ _ _ | .bgeu _ _ _ | .jal _ _ | .ldb _ _ _ | .ldh _ _ _
    | .ldw _ _ _ | .ldd _ _ _ | .ldbu _ _ _ | .ldhu _ _ _ | .ldwu _ _ _ | .stb _ _ _ | .sth _ _ _
    | .stw _ _ _ | .std _ _ _ | .nop | .signal _ | .parkq _ | .launch _ _ | .loopb _ _ _ => true
  | _ => false

/-- The rounding field rm3 of an instruction that has one (R52). -/
def roundingOf (i : Instr) : Option (BitVec 3) :=
  match i with
  | .fadd _ _ _ _ m | .fsub _ _ _ _ m | .fmul _ _ _ _ m | .fdiv _ _ _ _ m | .fsqrt _ _ _ m | .fcvt _ _ _ _ m | .ffma _ _ _ _ _ m => some m
  | _ => none

/-- How the effect of an instruction ends: the machine goes on at the next instruction or at a
target, a cause is raised, a reserved value is met (R57), the instruction has not begun (R13, R236),
or the meaning has placed the program counter itself. -/
inductive Res where
  | ok (s : State)
  | jump (s : State) (pc : Word)
  | trap (s : State) (cause : BitVec 8) (val : Word)
  | rsvd (s : State)
  | stall (s : State)
  | done (s : State)

/-- The length of an instruction in bytes (R39). -/
def lenOf (i : Instr) : Nat := if isShort i then 2 else 4

/-- NPC (R73). -/
def npc (s : State) (i : Instr) : Word := readPc s + word (lenOf i)

/-- The instruction word that TRAPVAL takes (R44, R57). -/
def insnWord (i : Instr) : Word := word (encode i)

/-- A trap of a Sedge processor or of a queue program (R426, R441): POISON has a
reason of its own; every other stands for an access outside its windows. -/
def serviceTrap (s : State) (cause : BitVec 8) (val : Word) : State :=
  match s.own.turn with
  | .core => s
  | .sedge n => kernelTrap s n (if cause = causePoison then 3 else 2) val
  | .cfe n => queueFault s n

/-- What an instruction's end makes of the state. [log 63: DEDUCED] -/
def finish (i : Instr) (r : Res) : State :=
  match r with
  | .ok s => retire (writePc s (npc s i))
  | .jump s pc => retire (writePc s pc)
  | .trap s cause val => if s.own.turn = .core then takeTrap s cause val else serviceTrap s cause val
  | .rsvd s => if s.own.turn = .core then parkReserved s (insnWord i) else serviceTrap s causeRsvd 0
  | .stall s => { s with own := { s.own with stalled := true } }
  | .done s => s

/-- The outcome of the checks before an instruction's own effect. -/
inductive Check where
  | pass
  | raise (cause : BitVec 8) (val : Word)
  | reserved
  /-- it waits for an atomic's reply (R242) -/
  | wait
  /-- the queue that it writes is full (R13) -/
  | full
  /-- a register that it reads is poisoned (R223, R258) -/
  | poisoned (addr : Word)
  deriving DecidableEq, Repr

/-- The checks of CSRR and CSRW in the order of R95, before the register window (R59). -/
def csrCheck (s : State) (i : Instr) : Check :=
  match i with
  | .csrr _ n =>
    if !csrAssigned n.toNat then .raise causeIllegal (insnWord i)
    else if isUser s && csrHidden s n.toNat then .raise causePriv (zextField n)
    else .pass
  | .csrw _ n =>
    if !csrAssigned n.toNat then .raise causeIllegal (insnWord i)
    else if (isUser s && csrGuarded n.toNat) || (decide (n = 0x048) && bit s.cpu.partid 46) then .raise causePriv (zextField n)
    else if !csrWritable n.toNat then .raise causeIllegal (insnWord i)
    else .pass
  | .tret => if s.cpu.trap.isNone && !isUser s then .raise causeIllegal (insnWord i) else .pass
  | _ => .pass

/-- VEC or MAT of the running frame is 0 where the instruction needs it; a trap frame has no header
(R20). -/
def undeclared (s : State) (i : Instr) : Bool :=
  s.cpu.trap.isNone &&
    ((isVector i && !(s.cpu.frames.head?.any (·.vec))) || (isMatrix i && !(s.cpu.frames.head?.any (·.mat))))

/-- The lowest register that lies outside the window (R16). -/
def outside (s : State) (i : Instr) : Option Nat :=
  (((namedRegs i).map BitVec.toNat).filter fun r => decide (windowSize s ≤ r)).min?

/-- The banked registers that an instruction reads (R10), numbered as `bankPoison` numbers them: the mask of a
masked operation, an accumulator, and the registers that an engine command reads at issue among them. [log 42: DESIGN CHOICE] -/
def bankSources (s : State) (i : Instr) : List Nat :=
  let v := fun (r : BitVec 4) => 32 + r.toNat
  let k := fun (r : BitVec 3) => 48 + r.toNat
  let under := fun (r : BitVec 3) => if r = 0 then [] else [48 + r.toNat]
  let tile := fun (r : BitVec 2) => 60 + r.toNat
  let fp := fun (e : BitVec 3) => if 4 ≤ e.toNat then [76] else []
  let rounded := fun (m : BitVec 3) => if m = 7 then [76] else []
  let gen := fun (n : Nat) => if bit (readE s n) 63 then [64 + field (readE s n) 60 3] else []
  match i with
  | .fadd _ _ _ _ m | .fsub _ _ _ _ m | .fmul _ _ _ _ m | .fdiv _ _ _ _ m | .fsqrt _ _ _ m | .fcvt _ _ _ _ m | .ffma _ _ _ _ _ m => rounded m
  | .faddi _ _ | .fmuli _ _ | .faddK _ _ _ _ | .fmulK _ _ _ _ | .fsubK _ _ _ _ | .ffmaK _ _ _ _ => [76]
  | .vadd _ a b m e | .vsub _ a b m e | .vmul _ a b m e | .vdiv _ a b m e => v a :: v b :: under m ++ fp e
  | .vmin _ a b m _ | .vmax _ a b m _ | .vand _ a b m _ | .vor _ a b m _
    | .vxor _ a b m _ | .vshl _ a b m _ | .vshr _ a b m _ | .vsra _ a b m _ | .vadds _ a b m _ | .vsubs _ a b m _ | .vcmpeq _ a b m _ | .vcmplt _ a b m _
    | .vcmple _ a b m _ | .vcmpltu _ a b m _ | .vperm _ a b m _ | .vsel _ a b m _ => v a :: v b :: under m
  | .vfma d a b m e => v d :: v a :: v b :: under m ++ fp e
  | .vredadd _ a m e => v a :: under m ++ fp e
  | .vabs _ a m _ | .vredmin _ a m _ | .vredmax _ a m _ => v a :: under m
  | .vcvt _ a _ m _ =>
    let word := decide (field (readE s 3) 56 8 = 0xC5)
    v a :: under m ++ 59 :: (if word && decide (field (readE s 3) 0 3 = 5) then [64 + field (readE s 3) 12 3] else [])
      ++ (if word && decide (field (readE s 3) 0 3 ≠ 7) then [] else [76])
  | .vbcast _ _ m _ | .vidx _ m _ | .vld _ _ m _ | .vlds _ _ _ m _ => under m
  | .vmovx _ a _ _ => [v a]
  | .vmand _ a b | .vmor _ a b | .vmxor _ a b => [k a, k b]
  | .vmpopc _ a => [k a]
  | .vgen _ g _ m e => (64 + g.toNat) :: under m ++ fp e
  | .vst x _ m _ | .vsts x _ _ m _ => v x :: under m
  | .vgath _ _ b m _ => v b :: under m
  | .vscat x _ b m _ => v x :: v b :: under m
  | .stx m _ _ | .mfe _ m => [56 + m.toNat]
  | .csrr _ n => if n = 4 then [76] else if 0x34 ≤ n.toNat && decide (n.toNat ≤ 0x37) then [72 + (n.toNat - 0x34)] else []
  | .fence c | .fenceAcq c | .fenceRel c | .fencex c _ _ => [72 + c.toNat]
  | .copy _ _ _ | .grstep _ _ => [59]
  | .grbc _ _ => [56]
  | .mma t _ => [tile t, 56, 57, 58, 59] ++ gen 0 ++ gen 1
  | .mmac t x _ => [tile t, tile x, 56, 57, 58, 59] ++ gen 1
  | .acld _ _ => [58]
  | .acst t _ => [tile t, 58, 59]
  | .accvt t _ b => [tile t, 59] ++ (if field (readX s b) 0 3 = 5 then [64 + field (readX s b) 12 3] else if field (readX s b) 0 3 = 7 then [76] else [])
  | .gget _ g | .gdraw _ _ g => [64 + g.toNat]
  | _ => []

/-- A poisoned register that the instruction reads (R223, R258): TRAPVAL is the target's address, or 0 for an error in
the register itself. [log 42: DESIGN CHOICE] -/
def poisonedSource (s : State) (i : Instr) : Option PoisonMark :=
  match (poisonMarks s).find? fun p => (sourceRegs i).any fun r => decide (r.toNat = p.reg) with
  | some p => some p
  | none => if (bankSources s i).any fun r => s.cpu.bankPoison.get (128 * level s + r) then some { reg := 0, addr := 0 } else none

/-- The frame of a register of an atomic in flight: the running frame's level, or the trap frame. -/
def frameTag (s : State) : Option Nat := if s.cpu.trap.isSome then none else some (level s)

/-- The instruction names the destination of an atomic whose reply is awaited (R242). -/
def namesReply (s : State) (i : Instr) (a : InFlight) : Bool :=
  a.returning && decide (a.level = frameTag s) &&
    (namedRegs i ++ sourceRegs i).any fun r => decide (r ≠ 0) && (decide (r = a.rd) || (decide (a.size = 16) && decide (r = a.rd + 1)))

/-- Entries that count against the depth of q3 (R13). -/
def q3Used (s : State) : Nat := s.cpu.q3.length + s.cpu.q3Out.length + (s.cpu.port.filter (·.own)).length

/-- The queue that an instruction writes has no space: its checks are made when it has (R13, R163, R164, R319). [log 25: DEDUCED] -/
def queueFull (s : State) (i : Instr) : Bool :=
  match i with
  | .copy _ _ _ => decide (16 ≤ s.eng.q1.length)
  | .mma _ _ | .mmac _ _ _ | .acld _ _ | .acst _ _ | .acz _ | .accvt _ _ _ => decide (16 ≤ s.eng.q0.length)
  | .grdef _ _ | .grstep _ _ => decide (8 ≤ s.eng.q2.length)
  | .send _ _ _ | .spawn _ _ _ => decide (8 ≤ q3Used s)
  | _ => false

/-- The checks of R59 on the compute core, in order. A poisoned register is an execution cause, after the reserved
values of the instruction's own description. -/
def coreCheck (s : State) (i : Instr) : Check :=
  if !i.wellFormed || isBounded i then .raise causeIllegal (insnWord i)
  else if queueFull s i then .full
  else if isUser s && isSupervisorOnly i then .raise causePriv (insnWord i)
  else
    match csrCheck s i with
    | .pass =>
      if undeclared s i then .raise causeUndecl (insnWord i)
      else
        match outside s i with
        | some r => .raise causeWindow (word r)
        | none =>
          if (roundingOf i).any fun m => decide (m = 5) || decide (m = 6) then .reserved
          else if s.cpu.inFlight.any (namesReply s i) then .wait
          else
            match poisonedSource s i with
            | some p => .poisoned p.addr
            | none => .pass
    | c => c

/-- The checks before an instruction's effect. A word outside the bounded profile is in no loaded
program (R413, R415); it ends the program that meets it. -/
def check (s : State) (i : Instr) : Check :=
  match s.own.turn with
  | .core => coreCheck s i
  | .sedge _ => if i.wellFormed && inKernel i then .pass else .raise causeIllegal (insnWord i)
  | .cfe _ => if i.wellFormed && inProgram i then .pass else .raise causeIllegal (insnWord i)

/-- A full queue stalls the instruction, which has not begun (R13); under a step of the debug module
the core halts with its QFULL bit set (R377). [log 25: DEDUCED] -/
def stallFull (s : State) : Res :=
  let s := countEvent s 9 (Config.cycles s.own.tick)
  if s.cpu.stepping then .done (haltCore { s with dbg := { s.dbg with qfull := s.dbg.qfull ||| ownBit s } } 4) else .stall s

/-- An instruction that reads a poisoned register: POISON comes after ILLEGAL and RSVD (R59). [log 42: DESIGN CHOICE] -/
def poisonedRes (s : State) (addr : Word) (own : Res) : Res :=
  match own with
  | .rsvd _ => .rsvd s
  | .trap _ cause val => if cause = causeIllegal then .trap s cause val else .trap s causePoison addr
  | _ => .trap s causePoison addr

/-- Run one instruction with the given effect. -/
def runInstr (i : Instr) (body : State → Res) (s : State) : Host.Outcome State Fault Refusal :=
  .next (finish i (match check s i with
    | .pass => body s
    | .raise cause val => .trap s cause val
    | .reserved => .rsvd s
    | .wait => .stall (waitForAtomics s (namesReply s i))
    | .full => stallFull s
    | .poisoned a => poisonedRes s a (body s)))

/-- Go on with a memory access inside a meaning. -/
def Acc.run {α : Type} (x : Acc α) (f : State → α → Res) : Res :=
  match x with
  | .ok s a => f s a
  | .trap s c v => .trap s c v
  | .stall s => .stall s

end Sys2Proof.Machine
end

