-- ==== Sys2Proof/Machine/Operands.lean ====
section
/-! DEFINITION. The operand forms of the scalar instructions: registers, immediates, the address of a
load or store, constant-window entries and branch targets (R41, R73, R82, R86, R93). -/

namespace Sys2Proof.Machine

/-- X(rd) := f (X(ra), X(rb)), the R form (R74). -/
def regReg (d a b : Reg) (f : Word → Word → Word) (s : State) : Res :=
  .ok (writeX s d (f (readX s a) (readX s b)))

/-- X(rd) := f (X(ra), v), the I form (R80). -/
def regImm (d a : Reg) (v : Word) (f : Word → Word → Word) (s : State) : Res :=
  .ok (writeX s d (f (readX s a) v))

/-- The address X(ra) + sext64(imm12) of the M form (R86). -/
def address (s : State) (a : Reg) (i : BitVec 12) : Word := readX s a + sextField i

/-- A taken branch of the B form or not (R82): target := PC + sext64(off) × 2. -/
def branch {n : Nat} (take : State → Bool) (off : BitVec n) (s : State) : Res :=
  if take s then .jump s (readPc s + sextField off * 2) else .ok s

/-- imm20 :: 0x000, sign-extended (R41, R81). -/
def upper (i : BitVec 20) : Word := sext 32 (i.toNat * 4096)

/-- The two extensions of a loaded integer of `n` bytes (R86). -/
inductive Extend where
  | signed
  | zero
  deriving DecidableEq, Repr

/-- A loaded integer as a register value (R86). -/
def extend (x : Extend) (n : Nat) (bs : List Byte) : Word :=
  match x with
  | .signed => sext (8 * n) (ofBytes bs)
  | .zero => word (ofBytes bs)

/-- X(rd) := mem(a, n), extended (R86). -/
def loadInto (d : Reg) (addr : State → Word) (n : Nat) (x : Extend) (s : State) : Res :=
  (load s (addr s) n).run fun s bs => .ok (writeX s d (extend x n bs))

/-- mem(a, n) := the low n bytes of a value (R86). -/
def storeFrom (v : State → Word) (addr : State → Word) (n : Nat) (s : State) : Res :=
  (store s (addr s) (toBytes n (v s).toNat)).run fun s _ => .ok s

/-- The operand cw of the K form (R93), a load of local memory (R227, R236): an entry whose granule is poisoned traps
POISON at its local address. -/
def constantOf (s : State) (i : BitVec 8) : Acc Word :=
  if isFenced s 0 then .stall (waitFenced s 0)
  else if localPoison s (ownKey s (8 * i.toNat)) 8 then .trap s causePoison (word (8 * i.toNat))
  else .ok s (wordOf (seenLocals s (ownKey s (8 * i.toNat)) 8))

/-- X(rd) := f (X(ra), cw), the K form (R93). -/
def regConst (d a : Reg) (i : BitVec 8) (f : Word → Word → Word) (s : State) : Res :=
  (constantOf s i).run fun s cw => .ok (writeX s d (f (readX s a) cw))

/-- The constant-window entry `i` goes to a register (R93). -/
def constInto (d : Reg) (i : BitVec 8) (s : State) : Res :=
  (constantOf s i).run fun s cw => .ok (writeX s d cw)

end Sys2Proof.Machine
end

