-- ==== Sys2Proof/Machine/Tasks.lean ====
section
/-! DEFINITION. Tasks: messages, spawns, the end of a task, claims, dependence counters, tag arms,
barriers, and the dispatch of a waiting entry (R138 to R178). -/

namespace Sys2Proof.Machine

/-! ## Targets and images (R161, R162) -/

/-- The core lies in a fenced cluster (R225); whether one of another device does is free. [log 78: DESIGN CHOICE] -/
def isFencedCore (s : State) (id : BitVec 18) : Bool :=
  if idDev id = ownDev s then bit s.cfe.fenced (clusterOf id) else Config.farFenced s.own.tick id

/-- A well-formed core id in bits [17:0] of a word (R162). -/
def idWellFormed (x : Word) : Bool := decide (field x 18 46 = 0) && decide (field x 4 4 ≤ 9)

/-- The core id of a word. -/
def coreOf (x : Word) : BitVec 18 := BitVec.ofNat 18 x.toNat

/-- A core of the partition: some PRECTn with V = 1 contains it (R358). -/
def inPartition (s : State) (id : BitVec 18) : Bool :=
  (List.range 8).any fun n => bit (s.cpu.prect.get n) 63 && inRect (s.cpu.prect.get n) id

/-- A target that SEND, SPAWN, a remote DCDEC and PARK accept (R162, R225, R358). -/
def validTarget (s : State) (x : Word) : Bool :=
  idWellFormed x && inPartition s (coreOf x) && !isFencedCore s (coreOf x)

/-- The check of an image's address: a multiple of 64, at most 0x000F_FFC0 (R161). -/
def imageAddressBad (a : Word) : Bool := decide (a.toNat % 64 ≠ 0) || decide (0xFFFC0 < a.toNat)

/-- The check of header word 0 of an image (R161): reserved bits, LEVEL, FAULT and BOUNCE, and the
fields that a mask requires to be zero. -/
def imageFormatBad (h mask : Word) : Bool := decide (h &&& mask ≠ 0) || decide (23 < hdrLevel h)

/-- Bits that SEND requires to be zero: [63:59], LOGGED, TC, FAULT, BOUNCE. -/
def sendMask : Word := at_ 59 31 ||| at_ 58 1 ||| at_ 56 3 ||| at_ 55 1 ||| at_ 54 1
/-- SPAWN also requires RELEASE to be zero. -/
def spawnMask : Word := sendMask ||| at_ 53 1

/-- The checks of SEND and SPAWN in the order of R160; then the 64 bytes of the image. [log 73: DESIGN CHOICE] -/
def readImage (i : Instr) (a target mask : Word) (s : State) : Acc (List Byte) :=
  if imageAddressBad a then .trap s causeMsgaddr a
  else if inStash s (ownKey s a.toNat) 64 then .trap s causeAccess a
  else if localPoison s (ownKey s a.toNat) 64 then .trap s causePoison a
  else
    let img := getLocals s (ownKey s a.toNat) 64
    let h := dword img 0
    if imageFormatBad h mask then .trap s causeMsgfmt h
    else if 20 ≤ hdrLevel h && isUser s then .trap s causePriv (insnWord i)
    else if !validTarget s target then .trap s causeTarget target
    else .ok s img

/-- The message of an image with a traffic class, as it enters q3 (R163). -/
def imageMessage (s : State) (img : List Byte) (tc : Nat) : Message :=
  { hdr0 := dword img 0 ||| at_ 56 tc, hdr1 := hdr1Of s s.cpu.coreId, body := (messageOf img).body }

/-- SEND (R163). [log 25: DEDUCED] -/
def sendBody (a b : Reg) (t : BitVec 2) (s : State) : Res :=
    (readImage (.send a b t) (readX s b) (readX s a) sendMask s).run fun s img =>
      let s := publish s
      let e : Outbound := .message (coreOf (readX s a)) (imageMessage s img t.toNat) false
      .ok { s with cpu := { s.cpu with q3 := s.cpu.q3 ++ [e] } }

/-- The bounced form of a refused spawn (R153). -/
def bounced (s : State) (m : Message) (by_ : BitVec 18) : Message :=
  { m with hdr0 := m.hdr0 ||| at_ 54 1, hdr1 := hdr1Of s by_ }

/-- SPAWN (R164): a spawn to the own core without a free general slot takes the bounce path at once. -/
def spawnBody (d a b : Reg) (s : State) : Res :=
    (readImage (.spawn d a b) (readX s b) (readX s a) spawnMask s).run fun s img =>
      let s := publish s
      let target := coreOf (readX s a)
      let m := imageMessage s img 0
      if target = s.cpu.coreId && decide (freeGeneral s = 0) then
        .ok (writeX (placeBounce s (bounced s m s.cpu.coreId)) d 1)
      else
        .ok (writeX { s with cpu := { s.cpu with q3 := s.cpu.q3 ++ [.message target m true] } } d 0)

/-! ## Ending a task (R145, R157, R166) -/

/-- A frame with its window, read from its slot while it is spilled (R147). -/
def residentFrame (s : State) (f : Frame) : Frame :=
  if f.spilled then
    let n := 8 * (f.wcode.toNat + 1)
    let regAt := fun i => ownKey s (f.spillSlot + 8 * i)
    let regs := (List.range n).foldl (fun (t : Table Word) i => if i = 0 then t else t.set i (wordOf (getLocals s (regAt i) 8))) []
    let bad := ((List.range n).filter fun i => i ≠ 0 && localPoison s (regAt i) 8).map fun i =>
      (f.poison.find? fun p => p.reg = i).getD { reg := i, addr := 0 }
    { f with regs := regs, poison := bad, spilled := false }
  else f

/-- A spilled window comes back from its slot before its frame resumes (R147). -/
def fillTop (s : State) : State :=
  match s.cpu.frames with
  | f :: fs => if f.spilled then countEvent { s with cpu := { s.cpu with frames := residentFrame s f :: fs } } 3 1 else s
  | [] => s

/-- A field of a delay-account record. -/
def accountField (s : State) (key n : Nat) : Nat := ofBytes (getLocals s key n)

/-- Update the delay account of a frame that ends (R157). [log 86: DESIGN CHOICE] -/
def accountDelay (s : State) (f : Frame) : State :=
  if bit s.cpu.dacbase 0 then
    let key := ownKey s (field s.cpu.dacbase 15 5 * 0x8000 + 32 * field f.msgInfo 0 10)
    let count := min (accountField s key 4 + 1) (2 ^ 32 - 1)
    let far := decide (field f.msgInfo 10 8 ≠ ownDev s)
    let remote := min (accountField s (key + 4) 4 + bnat far) (2 ^ 32 - 1)
    let diff := sext 32 (field f.arrival 0 32 + 2 ^ 32 - field f.msgInfo 32 32)
    let transit := wordOf (getLocals s (key + 8) 8) + (if diff.msb then 0 else diff)
    let wait := wordOf (getLocals s (key + 16) 8) + (f.dispatched - f.arrival)
    let run := wordOf (getLocals s (key + 24) 8) + f.run
    putLocal s key (toBytes 4 count ++ toBytes 4 remote ++ toBytes 8 transit.toNat ++ toBytes 8 wait.toNat ++ toBytes 8 run.toNat)
  else s

/-- A CLAIMERR, DCERR or BARERR trap (R160). -/
def reasonTrap {α : Type} (s : State) (cause : BitVec 8) (reason : Nat) (operand : Word) : Acc α :=
  .trap s cause (reasoned reason operand)

/-- A save in which every register counts as live (R361). -/
def wholeSave : SavePoint := { live := false, gens := 0xFFFF, regs := 0xFFFFFFFFFFFFFFFF }

/-- The switch is due (R359, R360). -/
def sliceDue (s : State) : Bool :=
  bit s.cpu.slcfg 0 && decide (s.cpu.slat ≠ 0) && s.cpu.synced && decide (s.cpu.slat.toNat ≤ s.cpu.time.toNat) && !s.cpu.away

/-- The core is switch-pending: from the instant of its slice on (R360). -/
def switchPending (s : State) : Bool := s.cpu.switching || sliceDue s

/-- The deadline of a pending switch (R361). -/
def deadlinePassed (s : State) : Bool := switchPending s && decide (s.cpu.slat.toNat + 20000 ≤ s.cpu.time.toNat)

/-- WDLIM in nanoseconds (R356, R357). -/
def watchdogLimit (s : State) : Nat := 1000 * field s.cpu.partid 48 16

/-- WATCHDOG (R354, R356): beyond WDLIM the core posts once and goes on; the spec states no PC and no
value of this message, so the two words are free. [log 36: DESIGN CHOICE] -/
def watchdogPosts (s : State) : State :=
  if watchdogLimit s ≠ 0 && decide (watchdogLimit s < s.cpu.wdCount) && !s.cpu.wdPosted then
    let d := draw s (2 ^ 64)
    let e := draw d.2 (2 ^ 64)
    let s := { e.2 with cpu := { e.2.cpu with wdPosted := true } }
    postFault s (zextField causeWatchdog) (word d.1) (word e.1) (faultWord3 s false) (taskIdWord s) (msgInfoWord s)
  else s

/-- TEND (R145, R166), which is a save point of a switch-pending core (R361). A watchdog that is due posts before the
count begins anew (R356). -/
def tendBody (i : Instr) (s : State) : Res :=
  if s.cpu.trap.isSome then .trap s causeIllegal (insnWord i)
  else
    match s.cpu.frames with
    | [] => .ok s
    | f :: fs =>
      if f.claimBase < s.cpu.claims.length then .trap s causeClaimerr (reasoned 5 (word s.cpu.claims.length))
      else
        let s := publish (accountDelay (watchdogPosts s) f)
        let s := orphanReplies (retire { s with cpu := { s.cpu with frames := fs, wdCount := 0, wdPosted := false } }) (some f.level)
        let s := if switchPending s then { s with cpu := { s.cpu with saving := some wholeSave } } else s
        .done (recordEvent s { kind := 7, unit := 2, lvl := f.level, sub := 0, status := 0, tag := 0, count := 0, info := f.entry })

/-! ## Claims (R167, R168) -/

/-- Set THR.LVL of the running frame. -/
def setThr (s : State) (v : Nat) : State :=
  match s.cpu.frames with
  | f :: fs => { s with cpu := { s.cpu with frames := { f with thr := v } :: fs } }
  | [] => s

/-- THR.LVL of the running frame. -/
def thrLevel (s : State) : Nat := (s.cpu.frames.head?.map (·.thr)).getD 0

/-- CLAIM (R167). [log 93: DESIGN CHOICE] -/
def claimBody (a : Reg) (s : State) : Res :=
  let n := readX s a
  let c := s.cpu.ceil.get n.toNat
  if s.cpu.trap.isSome then .trap s causeIllegal (insnWord (.claim a))
  else if 63 < n.toNat then .trap s causeClaimerr (reasoned 6 n)
  else if !bit c 7 then .trap s causeClaimerr (reasoned 1 n)
  else if field c 0 5 < level s then .trap s causeClaimerr (reasoned 2 n)
  else if s.cpu.claims.length = 16 then .trap s causeClaimerr (reasoned 3 n)
  else
    let old := thrLevel s
    .ok (setThr { s with cpu := { s.cpu with claims := (old, n.toNat) :: s.cpu.claims } } (max old (field c 0 5)))

/-- UNCLAIM (R168). -/
def unclaimBody (s : State) : Res :=
  if s.cpu.trap.isSome then .trap s causeIllegal (insnWord .unclaim)
  else
    match s.cpu.claims with
    | [] => .trap s causeClaimerr (reasoned 4 0xFF)
    | (old, _) :: rest =>
      if s.cpu.claims.length ≤ (s.cpu.frames.head?.map (·.claimBase)).getD 0 then .trap s causeClaimerr (reasoned 4 0xFF)
      else .ok (setThr { s with cpu := { s.cpu with claims := rest } } old)

/-! ## Dependence counters and tag arms (R169 to R171) -/

/-- A descriptor that DCSET refuses (R169). -/
def descriptorBad (s : State) (n : Nat) : Bool :=
  let w0 := descriptor s n 0
  let w1 := descriptor s n 1
  decide (field w0 53 9 ≠ 0) || decide (23 < field w0 48 5) || decide (field w1 20 28 ≠ 0) || decide (field w1 0 3 ≠ 0)

/-- DCSET (R151, R169). [log 23: DEDUCED] -/
def dcsetBody (a b : Reg) (s : State) : Res :=
  let n := readX s a
  let c := readX s b
  if pageOfCounters s = 0 then .trap s causeDcerr (reasoned 1 n)
  else if 4095 < n.toNat then .trap s causeDcerr (reasoned 2 n)
  else if 65535 < c.toNat then .trap s causeDcerr (reasoned 3 c)
  else if descriptorBad s n.toNat then .trap s causeDcerr (reasoned 4 n)
  else
    let w0 := descriptor s n.toNat 0
    if 20 ≤ field w0 48 5 && isUser s then .trap s causePriv (insnWord (.dcset a b))
    else
      let w0 := withField (withField w0 63 1 (bnat (decide (c ≠ 0)))) 62 1 (bnat (!isUser s))
      let s := putDescriptor (putDescriptor s n.toNat 0 w0) n.toNat 1 (withField (descriptor s n.toNat 1) 48 16 0)
      let s := putCounter s n.toNat c.toNat
      .ok (if c = 0 then releaseCounter s n.toNat 0 else s)

/-- DCDEC (R170). -/
def dcdecBody (a : Reg) (s : State) : Res :=
  let x := readX s a
  let remote := bit x 29
  let status := BitVec.ofNat 16 (field x 48 16)
  if !remote && decide (pageOfCounters s = 0) then .trap s causeDcerr (reasoned 1 (word (field x 0 12)))
  else if field x 12 17 ≠ 0 || (!remote && decide (field x 30 18 ≠ 0)) then .trap s causeDcerr (reasoned 7 x)
  else if remote then
    if 8 ≤ q3Used s then stallFull s
    else if !validTarget s (word (field x 30 18)) then .trap s causeTarget x
    else
      let s := publish s
      .ok { s with cpu := { s.cpu with q3 := s.cpu.q3 ++ [.decrement (BitVec.ofNat 18 (field x 30 18)) (BitVec.ofNat 12 (field x 0 12)) status] } }
  else .ok (decrement s (field x 0 12) status 0)

/-- The first free arm slot. [log 23: DEDUCED] -/
def freeArm (s : State) : Option Nat := (List.range 8).find? fun i => (s.cpu.arms.get i).isNone

/-- Cancel every arm that names a counter, in slot order (R171). -/
def cancelArms (s : State) (n : BitVec 12) : State :=
  (List.range 8).foldl (fun s i =>
    match s.cpu.arms.get i with
    | some a =>
      if a.n = n then decrement { s with cpu := { s.cpu with arms := s.cpu.arms.set i none } } n.toNat 1 0
      else s
    | none => s) s

/-- TAGARM (R171). The arms are tested at the end of the cycle. [log 23: DEDUCED] -/
def tagarmBody (all : Bool) (a b : Reg) (s : State) : Res :=
  let m := readX s a
  let x := readX s b
  let n := BitVec.ofNat 12 (field x 0 12)
  let cancel := bit x 63
  if !cancel && decide (pageOfCounters s = 0) then .trap s causeDcerr (reasoned 1 (zextField n))
  else if field x 12 51 ≠ 0 then .trap s causeDcerr (reasoned 2 x)
  else if cancel then .ok (cancelArms s n)
  else
    match freeArm s with
    | none => .trap s causeDcerr (reasoned 5 (zextField n))
    | some i =>
      if m = 0 then .trap s causeDcerr (reasoned 6 0)
      else .ok (fireArms { s with cpu := { s.cpu with arms := s.cpu.arms.set i (some { mask := m, all := all, n := n }) } })

/-! ## Barriers (R154, R155, R174 to R177) -/

/-- Register bn. -/
def barrier (s : State) (n : BitVec 5) : Barrier := s.cpu.bar.get n.toNat

/-- Replace register bn. -/
def setBarrier (s : State) (n : BitVec 5) (b : Barrier) : State :=
  { s with cpu := { s.cpu with bar := s.cpu.bar.set n.toNat b } }

/-- The value that BARQ reads (R154). -/
def barrierWord (b : Barrier) : Word :=
  at_ 62 (bnat b.active) ||| at_ 61 (bnat b.reg) ||| at_ 60 (bnat b.arr) ||| at_ 59 (bnat b.arm) ||| at_ 57 b.pend.toNat
    ||| at_ 44 b.succ.toNat ||| at_ 28 b.phase.toNat ||| at_ 16 b.expect.toNat ||| at_ 4 b.arrived.toNat

/-- The gang size from identity word 202 (R160). -/
def gangSize (s : State) : Nat :=
  let r := constant s 202
  (field r 10 5 + 1 - field r 0 5) * (field r 15 5 + 1 - field r 5 5)

/-- An operation on its way to the root (R177). -/
def toRoot (s : State) (o : BarrierOp) : State := { s with net := { s.net with out := s.net.out ++ [o] } }

/-- The BARI row of R155 at this core: the register is reset and an armed successor is released with
CANCELLED. -/
def resetBarrier (s : State) (n : BitVec 5) (count : BitVec 12) : State :=
  let b := barrier s n
  let s := setBarrier s n { b with active := true, reg := false, arr := false, arm := false, pend := 0, phase := 0, expect := count, arrived := 0 }
  if b.arm then decrement s b.succ.toNat 1 0 else s

/-- BARI (R174). -/
def bariBody (a : Reg) (n : BitVec 5) (s : State) : Res :=
  let c := readX s a
  if !s.cpu.member then .trap s causeBarerr (reasoned 1 0)
  else if c = 0 || decide (gangSize s < c.toNat) then .trap s causeBarerr (reasoned 2 c)
  else .ok (toRoot (resetBarrier s n (BitVec.ofNat 12 c.toNat)) (.bari n (BitVec.ofNat 12 c.toNat)))

/-- BARV (R175). -/
def barvBody (a : Reg) (n : BitVec 5) (s : State) : Res :=
  let x := readX s a
  let b := barrier s n
  let named := bit x 28
  if !s.cpu.member then .trap s causeBarerr (reasoned 1 0)
  else if !b.active then .trap s causeBarerr (reasoned 3 x)
  else if field x 0 12 ≠ b.expect.toNat then .trap s causeBarerr (reasoned 4 (word (field x 0 12)))
  else if b.arr then .trap s causeBarerr (reasoned 5 x)
  else if field x 29 35 ≠ 0 || decide (field x 12 4 ≠ 0) then .trap s causeBarerr (reasoned 7 x)
  else if named && decide (pageOfCounters s = 0) then .trap s causeDcerr (reasoned 1 (word (field x 16 12)))
  else
    let s := publish s
    let b := { b with arr := true, reg := true, arm := named || b.arm, succ := if named then BitVec.ofNat 12 (field x 16 12) else b.succ }
    .ok (toRoot (setBarrier s n b) (.arrive n b.expect b.epoch))

/-- BARD and BARJ (R155, R176): a drop for a participant, a join for another core. -/
def requestBody (drop : Bool) (n : BitVec 5) (s : State) : Res :=
  let b := barrier s n
  let code : BitVec 2 := if drop then 2 else 1
  if !s.cpu.member then .trap s causeBarerr (reasoned 1 0)
  else if !b.active then .trap s causeBarerr (reasoned 6 (zextField n))
  else if b.reg = drop && decide (b.pend ≠ code) then
    .ok (toRoot (setBarrier s n { b with pend := code }) (if drop then .drop n b.epoch else .join n b.epoch))
  else .ok s

/-! ## The instructions -/

/-- SEND (R163). -/
def execSend (a b : Reg) (t : BitVec 2) (s : State) : Host.Outcome State Fault Refusal :=
  runInstr (.send a b t) (sendBody a b t) s

/-- SPAWN (R164). -/
def execSpawn (d a b : Reg) (s : State) : Host.Outcome State Fault Refusal :=
  runInstr (.spawn d a b) (spawnBody d a b) s

/-- TEND (R166). -/
def execTend (s : State) : Host.Outcome State Fault Refusal := runInstr .tend (tendBody .tend) s

/-- CLAIM (R167). -/
def execClaim (a : Reg) (s : State) : Host.Outcome State Fault Refusal := runInstr (.claim a) (claimBody a) s

/-- UNCLAIM (R168). -/
def execUnclaim (s : State) : Host.Outcome State Fault Refusal := runInstr .unclaim unclaimBody s

/-- DCSET (R169). -/
def execDcset (a b : Reg) (s : State) : Host.Outcome State Fault Refusal := runInstr (.dcset a b) (dcsetBody a b) s

/-- DCDEC (R170). -/
def execDcdec (a : Reg) (s : State) : Host.Outcome State Fault Refusal := runInstr (.dcdec a) (dcdecBody a) s

/-- TAGARM.ANY (R171). -/
def execTagarmAny (a b : Reg) (s : State) : Host.Outcome State Fault Refusal :=
  runInstr (.tagarmAny a b) (tagarmBody false a b) s

/-- TAGARM.ALL (R171). -/
def execTagarmAll (a b : Reg) (s : State) : Host.Outcome State Fault Refusal :=
  runInstr (.tagarmAll a b) (tagarmBody true a b) s

/-- BARI (R174). -/
def execBari (a : Reg) (n : BitVec 5) (s : State) : Host.Outcome State Fault Refusal := runInstr (.bari a n) (bariBody a n) s

/-- BARV (R175). -/
def execBarv (a : Reg) (n : BitVec 5) (s : State) : Host.Outcome State Fault Refusal := runInstr (.barv a n) (barvBody a n) s

/-- BARD (R176). -/
def execBard (n : BitVec 5) (s : State) : Host.Outcome State Fault Refusal := runInstr (.bard n) (requestBody true n) s

/-- BARJ (R176). -/
def execBarj (n : BitVec 5) (s : State) : Host.Outcome State Fault Refusal := runInstr (.barj n) (requestBody false n) s

/-- BARQ (R176). -/
def execBarq (d : Reg) (n : BitVec 5) (s : State) : Host.Outcome State Fault Refusal :=
  runInstr (.barq d n) (fun s => .ok (writeX s d (barrierWord (barrier s n)))) s

/-! ## Dispatch (R143, R144, R147) -/

/-- An MFETCH trap that is pending at a boundary (R294, R348): of a faulted operation, the lowest
issuing level first. -/
def pendingMfetch (s : State) : Option MatrixOp :=
  (s.eng.waiting.filter fun m => m.trapPending && m.fault.isSome).foldl (fun b m => match b with
    | none => some m
    | some x => if m.cmd.fin.level < x.cmd.fin.level then some m else b) none

/-- The Peat record of a dispatch (R389): level, TC and sender, or the counter. -/
def dispatchRecord (s : State) (lvl : Nat) (e : Entry) : PeatRecord :=
  match e with
  | .message m _ _ => { unit := .core, part := partOf s, a := word (lvl + 256 * field m.hdr0 56 2), b := word (field m.hdr1 0 18) }
  | .release n _ _ _ => { unit := .core, part := partOf s, a := word (lvl + 65536), b := zextField n }

/-- The next record of the core's stream for a level. -/
def nextRecord (s : State) (lvl : Nat) : Option PeatRecord :=
  s.cfe.replay.find? fun r => decide (r.unit = .core) && decide (r.part = partOf s) && decide (field r.a 0 8 = lvl)

/-- The entry of a level that may be dispatched: the head of its queue, or in replay the entry that
the next record names, the others being held (R141, R390). -/
def queueHead (s : State) (lvl : Nat) : Option Entry :=
  let q := s.cpu.queues.get lvl
  if isForcedIn s (partOf s) .core then
    match nextRecord s lvl with
    | some r => q.find? fun e => decide (dispatchRecord s lvl e = r)
    | none => q.head?
  else q.head?

/-- The highest level with an entry that may be dispatched, p* of R143. -/
def topLevel (s : State) : Option Nat := (List.range 24).reverse.find? fun p => (queueHead s p).isSome

/-- A GRDEF or GRSTEP waits until its exchange has read its bytes (R309): no instruction of the core
begins and no dispatch falls inside the wait. -/
def leveeWait (s : State) : Bool := s.eng.q2.any fun c => c.base.isSome

/-- No dispatch occurs in these states (R143, R309, R360), nor before TIME has been synchronised (R32), and a pending
MFETCH comes first (R348). -/
def mayDispatch (s : State) : Bool :=
  s.cpu.synced && s.cpu.trap.isNone && s.cpu.parked.isNone && !s.cpu.halted && !(switchPending s) && !s.cpu.away && !s.cpu.poweredOff
    && (pendingMfetch s).isNone && !leveeWait s

/-- The level that dispatches now (R143). -/
def dispatchLevel (s : State) : Option Nat :=
  match topLevel s with
  | some p => if mayDispatch s && (isIdle s || decide (thrLevel s < p)) then some p else none
  | none => none

/-- What an entry gives its frame: handler, payload, MSGINFO and arrival. -/
structure Task where
  handler : Nat
  payload : List Word
  msgInfo : Word
  arrival : Word

/-- MSGINFO of a message (R148). -/
def messageInfo (m : Message) : Word :=
  at_ 32 (field m.hdr1 32 32) ||| at_ 29 (field m.hdr0 58 1) ||| at_ 27 (field m.hdr0 56 2) ||| at_ 26 (field m.hdr0 55 1)
    ||| at_ 25 (field m.hdr0 54 1) ||| at_ 24 (field m.hdr0 53 1) ||| at_ 0 (field m.hdr1 0 18)

/-- The release word (R152). -/
def releaseWord (n : BitVec 12) (status : BitVec 16) (bytes : BitVec 32) : Word :=
  at_ 32 bytes.toNat ||| at_ 16 n.toNat ||| zextField status

/-- The task of an entry; HANDLER and the payload words of a run-list entry are read now (R152). The
counter page is that of DCBASE now, also with BASE 0; a payload at the end of local memory goes on in the
cluster window; poison of either is ignored. [log 86: DESIGN CHOICE] -/
def taskOf (s : State) (e : Entry) : Task :=
  match e with
  | .message m _ at_ =>
    { handler := field m.hdr0 0 48, payload := [m.body.p0, m.body.p1, m.body.p2, m.body.p3, m.body.p4, m.body.p5], msgInfo := messageInfo m, arrival := at_ }
  | .release n status bytes at_ =>
    let p := field (descriptor s n.toNat 1) 0 20
    let words := (List.range 5).map fun i => wordOf (getLocals s (localKey s (p + 8 * i)) 8)
    { handler := field (descriptor s n.toNat 0) 0 48, payload := words ++ [releaseWord n status bytes],
      msgInfo := Sys2Proof.Machine.at_ 32 (field at_ 0 32) ||| Sys2Proof.Machine.at_ 24 1 ||| zextField s.cpu.coreId, arrival := at_ }

/-- A valid header (R18, R19). -/
def headerValid (h : Word) : Bool :=
  decide (field h 56 8 = 0xA7) && decide (field h 13 19 = 0) && decide (field h 4 4 = 0) && decide (field h 8 5 ≤ 23)

/-- The BADHDR report of R144 and R354. -/
def badHeader (s : State) (lvl : Nat) (t : Task) (reason : Nat) : State :=
  postFault s (zextField causeBadhdr) (word t.handler) (word reason) (at_ 8 lvl) (t.payload.getD 0 0) t.msgInfo

/-- Spill one window to its slot (R147). -/
def spillFrame (s : State) (f : Frame) : State × Frame :=
  let n := 8 * (f.wcode.toNat + 1)
  let put := fun s i => if i = 0 then s else
    let key := ownKey s (f.spillSlot + 8 * i)
    let s := putLocal s key (toBytes 8 (f.regs.get i).toNat)
    if f.poison.any fun p => p.reg = i then poisonLocal s key 8 else s
  (countEvent ((List.range n).foldl put s) 3 1, { f with regs := [], spilled := true })

/-- Stack entries that resident windows use (R15, R147). -/
def residentEntries (fs : List Frame) : Nat :=
  fs.foldl (fun n f => if f.spilled then n else n + 8 * (f.wcode.toNat + 1) - 1) 0

/-- Spill the lowest resident windows until `need` entries are free; the frames come lowest first. -/
def spillLowest (need : Nat) (above : Nat) : List Frame → State → State × List Frame
  | [], s => (s, [])
  | f :: fs, s =>
    if above + residentEntries (f :: fs) + need ≤ 609 then (s, f :: fs)
    else
      let r := if f.spilled then (s, f) else spillFrame s f
      let t := spillLowest need above fs r.1
      (t.1, r.2 :: t.2)

/-- Allocate a window of `n` registers (R147). -/
def makeRoom (s : State) (n : Nat) : State :=
  let r := spillLowest (n - 1) 0 s.cpu.frames.reverse s
  { r.1 with cpu := { r.1.cpu with frames := r.2.reverse } }

/-- The window at the start of a frame (R17): x2 and the payload as far as the window reaches. -/
def firstWindow (n a : Nat) (payload : List Word) : Table Word :=
  let t := Table.set [] 2 (word a)
  (List.range 6).foldl (fun (t : Table Word) i => if 3 + i < n then t.set (3 + i) (payload.getD i 0) else t) t

/-- The frame begins (R144 steps 3 to 9). -/
def pushFrame (s : State) (lvl : Nat) (t : Task) (h : Word) : State :=
  let n := 8 * (field h 0 2 + 1)
  let s := makeRoom s n
  let size := 256 * 2 ^ field s.cpu.scrcfg 0 4
  let base := field s.cpu.scrcfg 12 8 * 4096
  let a := base + lvl * size
  let f : Frame := {
    entry := word t.handler, pc := word t.handler, level := lvl, thr := lvl, claimBase := s.cpu.claims.length, msgInfo := t.msgInfo,
    taskId := t.payload.getD 0 0, wcode := BitVec.ofNat 2 (field h 0 2), vec := bit h 2, mat := bit h 3, sptOff := BitVec.ofNat 24 (field h 32 24),
    regs := firstWindow n a t.payload, poison := [], spillSlot := base + 24 * size + 256 * lvl, spilled := false,
    arrival := t.arrival, dispatched := s.cpu.time, run := 0 }
  let s := putLocal s (ownKey s a) (t.payload.flatMap fun w => toBytes 8 w.toNat)
  { s with cpu := { s.cpu with frames := f :: s.cpu.frames, fpctl := s.cpu.fpctl.set lvl 0, bankPoison := s.cpu.bankPoison.set (128 * lvl + 76) false, ldhsSince := none } }

/-- The Peat log at a dispatch (R389 to R391). -/
def logDispatch (s : State) (lvl : Nat) (e : Entry) : State := logChoice s (dispatchRecord s lvl e)

/-- Consume an entry and begin its frame, or report BADHDR (R144). -/
def startFrame (s : State) (lvl : Nat) (e : Entry) : State :=
  let t := taskOf s e
  let take := fun (s : State) =>
    dropUsed (admitWaiting (logDispatch { s with cpu := { s.cpu with queues := s.cpu.queues.set lvl ((s.cpu.queues.get lvl).erase e) } } lvl e))
  if t.handler % 8 ≠ 0 then badHeader (take s) lvl t 1
  else
    match fetchHeader s (decide (lvl < 20)) ((t.handler + 2 ^ 64 - 8) % 2 ^ 64) with
    | .wait s => s
    | .fail s r _ _ => badHeader (take s) lvl t r
    | .poison s _ => badHeader (take s) lvl t 6
    | .ok s h =>
      if !headerValid h then badHeader (take s) lvl t 1
      else if lvl < field h 8 5 then badHeader (take s) lvl t 2
      else
        let s := countEvent (pushFrame (take s) lvl t h) 2 1
        let tag := match e with
          | .message _ _ _ => 0
          | .release n _ _ _ => n.toNat
        recordEvent s { kind := 6, unit := 2, lvl := lvl, sub := 0, status := 0, tag := tag, count := 0, info := word t.handler }

/-- DISPATCH (R143, R144): the head of the highest queue above THR; without one, nothing happens. -/
def dispatch (s : State) : State :=
  match dispatchLevel s with
  | none => s
  | some p =>
    match queueHead s p with
    | some e => startFrame s p e
    | none => s

/-- DISPATCH. -/
def execDispatch (s : State) : Host.Outcome State Fault Refusal := .next (dispatch s)

end Sys2Proof.Machine
end

