-- ==== Sys2Proof/Machine/Engine.lean ====
section
/-! DEFINITION. What all engine commands share (their completion fields and their completion), the tag
instructions, and the copy engine (R272 to R285, R315 to R325). -/

namespace Sys2Proof.Machine

/-! ## Completion fields at issue (R273, R275, R319) -/

/-- The fields that a command without a release keeps. -/
def plainFin (s : State) (i : Instr) (mode : BitVec 3) (e3 : Word) : Completion where
  mode := mode
  tag := BitVec.ofNat 6 (field e3 58 6)
  ctr := BitVec.ofNat 12 (field e3 46 12)
  image := none
  level := level s
  sup := !isUser s
  part := partOf s
  word := BitVec.ofNat 32 (encode i)
  id := s.cpu.nextId

/-- A command has been written to its queue: the next one takes the next number (R246). -/
def issued (s : State) : State := { s with cpu := { s.cpu with nextId := s.cpu.nextId + 1 } }

/-- The completion fields read at issue: mode 010 needs a counter page, mode 011 reads the release image
at MSG. -/
def issueFin (s : State) (i : Instr) (q : BitVec 2) (e3 : Word) : Acc Completion :=
  let fin := plainFin s i (q.zeroExtend 3) e3
  if q = 2 && decide (pageOfCounters s = 0) then .trap s causeDcerr (reasoned 1 (zextField fin.ctr))
  else if q = 3 then
    let a := word (field e3 23 23)
    (readImage i a (ownDword s (a.toNat + 8)) sendMask s).map fun b =>
      { fin with image := some { hdr0 := dword b 0, target := coreOf (dword b 1), p0 := dword b 2, p1 := dword b 3, p2 := dword b 4, p3 := dword b 5, p4 := dword b 6, p5 := 0, cls := 0 } }
  else .ok s fin

/-! ## Completion (R273 to R275) -/

/-- ENGSTAT keeps the first nonzero status of modes 000 and 001 (R274). -/
def recordStatus (s : State) (status : BitVec 16) (tag eng : Nat) : State :=
  if status = 0 || bit s.cpu.engstat 0 then s
  else { s with cpu := { s.cpu with engstat := at_ 48 status.toNat ||| at_ 42 tag ||| at_ 40 eng ||| 1 } }

/-- TAGS bit := 1. -/
def setTag (s : State) (tag : BitVec 6) : State := { s with cpu := { s.cpu with tags := s.cpu.tags ||| at_ tag.toNat 1 } }

/-- An operation is complete: the invalidations that its writes caused are those of a completed one (R246), and a
load of what it wrote sees the new bytes alone (R227). -/
def endOperation (s : State) (id : Nat) : State :=
  let put := fun (a : Ack) => if a.op = some id then { a with op := none } else a
  { s with
    cpu := { s.cpu with acks := s.cpu.acks.map put }
    mem := { s.mem with shadows := s.mem.shadows.filter fun x => decide (x.op ≠ id) } }

/-- The completion of an operation of a unit (0 copy, 1 matrix, 3 Levee) with its status and byte count
(R273, R275, R317). -/
def completeOp (s : State) (fin : Completion) (unit sub : Nat) (status : BitVec 16) (bytes : Nat) : State :=
  let s := recordEvent (endOperation s fin.id) { kind := 5, unit := unit, lvl := fin.level, sub := sub, status := status.toNat, tag := fin.tag.toNat, count := bytes, info := zextField fin.word }
  let eng := if unit = 3 then 2 else unit
  let n := BitVec.ofNat 32 bytes
  if fin.mode = 0 then recordStatus s status 0 eng
  else
    let s := setTag s fin.tag
    match fin.mode with
    | 1 => fireArms (recordStatus s status fin.tag.toNat eng)
    | 2 => fireArms (decrement s fin.ctr.toNat status bytes)
    | _ =>
      let s := match fin.image with
        | some r => sendReleases { s with eng := { s.eng with releases := s.eng.releases ++ [{ r with p5 := releaseWord (fin.tag.zeroExtend 12) status n, cls := eng + 1 }] } }
        | none => s
      fireArms s

/-- A record of the event stream about a command. -/
def commandEvent (s : State) (fin : Completion) (kind unit sub : Nat) : State :=
  recordEvent s { kind := kind, unit := unit, lvl := fin.level, sub := sub, status := 0, tag := fin.tag.toNat, count := 0, info := zextField fin.word }

/-- The first cause that an operation met (R317): a later one does not replace it. -/
def addCause (status : BitVec 16) (cause : Nat) : BitVec 16 := if status &&& 0xFF = 0 then status ||| BitVec.ofNat 16 cause else status

/-- No engine operation starts once a switch-pending core has reached its save point (R362), and none
while the debugger has frozen the engines (R372, R377) or the cluster is fenced (R225). -/
def enginesHeld (s : State) : Bool := s.cpu.saving.isSome || s.cpu.away || s.cpu.poweredOff

/-- An engine accepts a command of its queue, of a path class: not while a release of the core awaits its
acknowledgements (R229) or an earlier FENCEX holds the class back (R246). -/
def accepts (s : State) (q : Nat) (fin : Completion) : Bool := !isHeld s && !isFencedFrom s q fin.id

/-! ## Tags (R321) -/

/-- TAGTST (R321). -/
def execTagtst (d a : Reg) (s : State) : Host.Outcome State Fault Refusal :=
  runInstr (.tagtst d a) (fun s => .ok (writeX s d (s.cpu.tags &&& readX s a))) s

/-- TAGFF (R321). -/
def execTagff (d a : Reg) (s : State) : Host.Outcome State Fault Refusal :=
  runInstr (.tagff d a) (fun s => .ok (writeX s d (word (lowestBit (s.cpu.tags &&& readX s a).toNat 64 0)))) s

/-- TAGCLR (R321). -/
def execTagclr (a : Reg) (s : State) : Host.Outcome State Fault Refusal :=
  runInstr (.tagclr a) (fun s => .ok { s with cpu := { s.cpu with tags := s.cpu.tags &&& ~~~ readX s a } }) s

/-! ## Shapes (R278 to R280, R323) -/

/-- COUNTd of a shape image. -/
def imageCount (img : List Byte) (d : Nat) : Nat := ofBytes ((img.drop (if d = 4 then 24 else 8 + 4 * d)).take 4)

/-- STRIDEd of a shape image, signed. -/
def imageStride (img : List Byte) (d : Nat) : Int :=
  if d = 0 then (BitVec.ofNat 32 (ofBytes ((img.drop 28).take 4))).toInt else (dword img (3 + d)).toInt

/-- The shape that an image describes. -/
def shapeOf (img : List Byte) : Shape :=
  let w := dword img 0
  let n := field w 40 4
  { ndim := n, packed := decide (field w 32 4 = 1), ebits := field w 0 8, counts := (List.range n).map (imageCount img), strides := (List.range n).map (imageStride img) }

/-- The number of elements of a shape. -/
def Shape.total (h : Shape) : Nat := h.counts.foldl (· * ·) 1

/-- The data bytes of a shape. -/
def Shape.bytes (h : Shape) : Nat := h.total * h.ebits / 8

/-- A reserved field or layout of an image (R280). -/
def shapeReserved (img : List Byte) : Bool :=
  let w := dword img 0
  decide (field w 44 12 ≠ 0) || decide (field w 36 4 ≠ 0) || decide (field w 30 2 ≠ 0) || decide (field w 8 16 ≠ 0) || decide (2 ≤ field w 32 4)

/-- The first reason of R280 that an image meets. -/
def shapeReason (img : List Byte) : Option Nat :=
  let w := dword img 0
  let n := field w 40 4
  let h := shapeOf img
  let e := h.ebits / 8
  if field w 56 8 ≠ 0x5C then some 1
  else if n = 0 || decide (5 < n) then some 2
  else if !((if h.packed then [1, 2, 4, 6, 8] else [8, 16, 32, 64, 128]).contains h.ebits) then some 3
  else if h.counts.any (fun c => decide (c = 0))
      || (List.range 5).any fun d => decide (n ≤ d) && (decide (imageCount img d ≠ 0) || (decide (1 ≤ d) && decide (imageStride img d ≠ 0))) then some 4
  else if (if h.packed then decide (imageStride img 0 ≠ 0) || decide (h.counts.headD 0 * h.ebits % 8 ≠ 0)
      else h.strides.any fun t => decide (t % (e : Int) ≠ 0)) then some 5
  else if 0xFFFFFFFF < h.bytes then some 6
  else none

/-- CSHP (R280, R323). A reserved field of a clean word comes before the poison of another (R59, R319). -/
def cshpBody (d a : Reg) (s : State) : Res :=
  let x := readX s a
  if imageAddressBad x then .trap s causeShape (reasoned 7 x)
  else if inStash s (ownKey s x.toNat) 64 then .trap s causeAccess x
  else if shapeReserved (cleanBytes s (ownKey s x.toNat) 64) then .rsvd s
  else if localPoison s (ownKey s x.toNat) 64 then .trap s causePoison x
  else
    let img := getLocals s (ownKey s x.toNat) 64
    match shapeReason img with
    | some r => .trap s causeShape (reasoned r x)
    | none =>
      let h := shapeOf img
      .ok (writeX { s with eng := { s.eng with shapes := s.eng.shapes.set (field (dword img 0) 24 6) (some h) } } d (word h.bytes))

/-- CSHP. -/
def execCshp (d a : Reg) (s : State) : Host.Outcome State Fault Refusal := runInstr (.cshp d a) (cshpBody d a) s

/-! ## COPY (R281, R324) -/

/-- The lowest and the highest byte of a traversal, before any wrap (R281). -/
def Shape.span (h : Shape) (base : Word) : Int × Int :=
  let steps := ((h.counts.zip h.strides).drop (if h.packed then 1 else 0)).map fun p => ((p.1 : Int) - 1) * p.2
  let lo := steps.foldl (fun a x => a + min 0 x) (base.toNat : Int)
  let hi := steps.foldl (fun a x => a + max 0 x) (base.toNat : Int)
  (lo, hi + (if h.packed then (h.counts.headD 0 * h.ebits / 8 : Nat) else (h.ebits / 8 : Nat)) - 1)

/-- A footprint reaches beyond 2^55 − 1 or touches the hole of R23. -/
def spanBad (p : Int × Int) : Bool :=
  decide (p.1 < 0) || decide ((2 : Int) ^ 55 ≤ p.2) || (decide (p.1 < 0x100000000) && decide (0x500000 ≤ p.2))

/-- The key span in local memory of a footprint, when it is local. -/
def spanKeys (s : State) (p : Int × Int) : Nat × Nat := (localKey s p.1.toNat, (p.2 - p.1).toNat + 1)

/-- A footprint in local memory covers a byte that a test admits. -/
def spanLocal (p : Int × Int) : Bool := decide (p.2 < 0x500000)

/-- The first reason of R281 that a copy meets, with its operand. -/
def copyReason (s : State) (ss ds : Nat) (sb db : Word) : Option (Nat × Word) :=
  match s.eng.shapes.get ss, s.eng.shapes.get ds with
  | none, _ => some (1, word ss)
  | _, none => some (1, word ds)
  | some x, some y =>
    let p := x.span sb
    let q := y.span db
    let misaligned := fun (h : Shape) (b : Word) => !h.packed && decide (b.toNat % (h.ebits / 8) ≠ 0)
    let split := fun (p : Int × Int) => decide (region p.1.toNat ≠ region p.2.toNat)
    if x.ebits ≠ y.ebits || decide (x.total ≠ y.total) then some (2, word ss)
    else if misaligned x sb then some (3, sb)
    else if misaligned y db then some (3, db)
    else if spanBad p then some (4, sb)
    else if spanBad q then some (4, db)
    else if split p then some (5, sb)
    else if split q then some (5, db)
    else if spanLocal q && (List.range 0x800).any fun o =>
        let k := spanKeys s q
        windowForbids (isUser s) o && decide (k.1 / 0x100000 * 0x100000 + o < k.1 + k.2) && decide (k.1 ≤ k.1 / 0x100000 * 0x100000 + o) then some (6, db)
    else none

/-- COPY (R324). [log 25: DEDUCED] -/
def copyBody (a b : Reg) (q : BitVec 2) (s : State) : Res :=
    let e3 := readE s 3
    if field e3 12 11 ≠ 0 then .rsvd s
    else
      (issueFin s (.copy a b q) q e3).run fun s fin =>
        match copyReason s (field e3 0 6) (field e3 6 6) (readX s a) (readX s b) with
        | some (r, v) => .trap s causeCpyaddr (reasoned r v)
        | none =>
          match s.eng.shapes.get (field e3 0 6), s.eng.shapes.get (field e3 6 6) with
          | some x, some y =>
            .ok { issued s with eng := { s.eng with q1 := s.eng.q1 ++ [{ src := x, dst := y, srcBase := readX s a, dstBase := readX s b, fin := fin, result := none }] } }
          | _, _ => .ok s

/-- COPY. -/
def execCopy (a b : Reg) (q : BitVec 2) (s : State) : Host.Outcome State Fault Refusal := runInstr (.copy a b q) (copyBody a b q) s

/-! ## A running copy (R277, R279, R283 to R285) -/

/-- The indices of element n of a traversal, dimension 0 fastest (R279). -/
def indices : List Nat → Nat → List Nat
  | [], _ => []
  | c :: t, n => n % c :: indices t (n / c)

/-- The bit address of element n (R279); byte addresses wrap modulo 2^64. -/
def Shape.bitAddr (h : Shape) (base : Word) (n : Nat) : Nat :=
  let ix := indices h.counts n
  let skip := if h.packed then 1 else 0
  let off := ((ix.zip h.strides).drop skip).foldl (fun (a : Int) p => a + (p.1 : Int) * p.2) 0
  (base + BitVec.ofInt 64 off).toNat * 8 + (if h.packed then ix.headD 0 * h.ebits else 0)

/-- The bytes that element n touches. -/
def Shape.elemBytes (h : Shape) (base : Word) (n : Nat) : List Nat :=
  let b := h.bitAddr base n
  (List.range (ceilDiv (b % 8 + h.ebits) 8)).map fun i => b / 8 + i

/-- The page of a byte: none for local memory, which has no pages (R283). -/
def pageNumber (a : Nat) : Option Nat := if a < 0x500000 then none else some (a / 65536)

/-- The pages of element n on both sides, when it straddles none. -/
def elemPages (c : CopyCmd) (n : Nat) : Option (Option Nat × Option Nat) :=
  let p := ((c.src.elemBytes c.srcBase n).map pageNumber).eraseDups
  let q := ((c.dst.elemBytes c.dstBase n).map pageNumber).eraseDups
  match p, q with
  | [x], [y] => some (x, y)
  | _, _ => none

/-- Split the elements from `n` on into pieces (R283): runs of elements of one source page and one
destination page; an element that straddles is a piece of its own. -/
def copyPieces (c : CopyCmd) : Nat → Nat → List (Nat × Nat)
  | 0, _ => []
  | m + 1, n =>
    match copyPieces c m (n + 1) with
    | (k, len) :: t =>
      if elemPages c n = elemPages c k && (elemPages c n).isSome then (n, len + 1) :: t else (n, 1) :: (k, len) :: t
    | [] => [(n, 1)]

/-- What a copy has done so far: the bytes of the present piece that are to be written, the last one
first, and the places that take poison. -/
structure Copying where
  s : State
  status : BitVec 16
  done : Nat
  stopped : Bool
  out : List (Dest × Byte)
  bad : List Dest

/-- One side of a piece resolved: the places of its bytes by address. -/
def resolveSide (s : State) (d : Nat) (fin : Completion) (need : Need) : List Nat → Except EngineFail (List (Nat × Dest))
  | [] => .ok []
  | a :: as =>
    match engineDest s d fin.part fin.sup need a with
    | .error e => .error e
    | .ok x =>
      match resolveSide s d fin need as with
      | .error e => .error e
      | .ok l => .ok ((a, x) :: l)

/-- The place of a byte among resolved ones. -/
def placeOf (l : List (Nat × Dest)) (a : Nat) : Dest := ((l.find? fun p => decide (p.1 = a)).map (·.2)).getD (.loc 0)

/-- The footprints share bytes of one core's local memory, or of global memory (R285). [log 27: DESIGN CHOICE] -/
def overlaps (s : State) (c : CopyCmd) : Bool :=
  let p := c.src.span c.srcBase
  let q := c.dst.span c.dstBase
  if spanLocal p && spanLocal q then
    let x := spanKeys s p
    let y := spanKeys s q
    decide (x.1 < y.1 + y.2) && decide (y.1 < x.1 + x.2)
  else !(spanLocal p) && !(spanLocal q) && decide (p.1 ≤ q.2) && decide (q.1 ≤ p.2)

/-- A byte as the copy has made it so far. -/
def Copying.now (k : Copying) (x : Dest) : EngineByte :=
  match k.out.find? fun o => decide (o.1 = x) with
  | some o => { engineByte k.s x with val := o.2 }
  | none => engineByte k.s x

/-- The byte that a copy reads (R285): the one before the copy, or in overlapping global memory freely
the one there now. [log 27: DESIGN CHOICE] -/
def copyReads (s0 : State) (k : Copying) (mixed : Bool) (d : Nat) (x : Dest) (a : Nat) : EngineByte :=
  if mixed && decide (Config.choiceAt (d + 1) a % 2 = 1) then k.now x else engineByte s0 x

/-- Bits `lo` to `lo + n − 1` of the bytes of an element replaced. -/
def mergeBits (old : Nat) (lo n v : Nat) : Nat := old % 2 ^ lo + v % 2 ^ n * 2 ^ lo + old / 2 ^ (lo + n) * 2 ^ (lo + n)

/-- The cause that bytes read in order bring first: a held word RACE, poison POISON (R239, R317). The spec orders the
causes of a copy by piece alone (R284); within one, elements come in their order, an element's reads before its
writes, and a byte that is held and poisoned brings RACE. [log 90: DESIGN CHOICE] -/
def readCause (status : BitVec 16) (l : List EngineByte) : BitVec 16 :=
  l.foldl (fun st b => if b.held then addCause st 7 else if b.poison then addCause st 6 else st) status

/-- The bytes of a destination element that receive bits of poisoned source bytes (R284), by position: `slo` and `dlo`
are the places of bit 0 of the element in its first bytes. -/
def poisonedBytes (bits slo dlo n : Nat) (rd : List EngineByte) : List Nat :=
  (List.range n).filter fun j => (List.range bits).any fun e => decide ((dlo + e) / 8 = j) && (rd[(slo + e) / 8]?).any (·.poison)

/-- Copy one element (R279, R284): its bits, the poison of its source granules, and words that a core
holds, which end in RACE. -/
def copyElement (s0 : State) (c : CopyCmd) (mixed : Bool) (d : Nat) (src dst : List (Nat × Dest)) (k : Copying) (n : Nat) : Copying :=
  let sa := c.src.elemBytes c.srcBase n
  let da := c.dst.elemBytes c.dstBase n
  let rd := sa.map fun a => copyReads s0 k mixed d (placeOf src a) a
  let v := ofBytes (rd.map (·.val)) / 2 ^ (c.src.bitAddr c.srcBase n % 8) % 2 ^ c.src.ebits
  let places := da.map (placeOf dst)
  let old := ofBytes (places.map fun x => (k.now x).val)
  let new := toBytes da.length (mergeBits old (c.dst.bitAddr c.dstBase n % 8) c.src.ebits v)
  let status := readCause k.status rd
  { k with
    out := (places.zip new).reverse ++ k.out
    bad := if rd.any (·.poison) then
        (poisonedBytes c.src.ebits (c.src.bitAddr c.srcBase n % 8) (c.dst.bitAddr c.dstBase n % 8) places.length rd).filterMap (fun j => places[j]?) ++ k.bad
      else k.bad
    status := if places.any (isHeldPlace k.s) then addCause status 7 else status }

/-- Copy one piece, or stop at it (R283). Where its source page and its destination page both fail, the source's cause
is reported: the spec orders the causes of pieces only. [log 90: DESIGN CHOICE] -/
def copyPiece (s0 : State) (c : CopyCmd) (mixed : Bool) (d : Nat) (k : Copying) (p : Nat × Nat) : Copying :=
  if k.stopped then k
  else
    let ns := (List.range p.2).map fun i => p.1 + i
    let sa := (ns.flatMap fun n => c.src.elemBytes c.srcBase n).eraseDups
    let da := (ns.flatMap fun n => c.dst.elemBytes c.dstBase n).eraseDups
    match resolveSide k.s d c.fin .read sa, resolveSide k.s d c.fin .write da with
    | .error e, _ => { k with status := addCause k.status e.code, stopped := true }
    | _, .error e => { k with status := addCause k.status e.code, stopped := true }
    | .ok src, .ok dst =>
      let k := ns.foldl (copyElement s0 c mixed d src dst) k
      let s := engineWrite (watchReads k.s 1 (src.map (·.2))) 1 (some c.fin.id) k.out.reverse k.bad
      { k with s := s, out := [], bad := [], done := k.done + p.2 * c.src.ebits }

/-- The places that a copy reads and writes, of the pieces before the first that fails a check (R283). -/
def copyPlaces (s : State) (c : CopyCmd) : List Dest :=
  ((copyPieces c c.src.total 0).foldl (fun (r : List Dest × Bool) p =>
    if r.2 then r
    else
      let ns := (List.range p.2).map fun i => p.1 + i
      let side := fun (f : Nat → List Nat) need => resolveSide s s.own.draws c.fin need (ns.flatMap f).eraseDups
      match side (c.src.elemBytes c.srcBase) .read, side (c.dst.elemBytes c.dstBase) .write with
      | .ok x, .ok y => (r.1 ++ (x ++ y).map (·.2), false)
      | _, _ => (r.1, true)) ([], false)).1

/-- The addresses of a copy, for the translation cache. -/
def copyTouches (c : CopyCmd) : List Nat :=
  (List.range c.src.total).flatMap fun n => c.src.elemBytes c.srcBase n ++ c.dst.elemBytes c.dstBase n

/-- Lines of other devices that a copy reads or writes and that are not at hand. -/
def copyMissing (s : State) (c : CopyCmd) : List FarLine := missingLines s (copyPlaces s c)

/-- A footprint overlaps a stash region (R206, R282). -/
def spanInStash (s : State) (p : Int × Int) : Bool :=
  spanLocal p && (let k := spanKeys s p; inStash s k.1 k.2)

/-- The accesses of a copy (R282 to R285): the state after them, the status and the byte count. -/
def performCopy (s : State) (c : CopyCmd) : State × BitVec 16 × Nat :=
  if spanInStash s (c.src.span c.srcBase) || spanInStash s (c.dst.span c.dstBase) then (s, 5, 0)
  else
    let d := s.own.draws
    let mixed := overlaps s c && !(spanLocal (c.src.span c.srcBase))
    let k := (copyPieces c c.src.total 0).foldl (copyPiece s c mixed d) { s := { s with own := { s.own with draws := d + 2 } }, status := 0, done := 0, stopped := false, out := [], bad := [] }
    let lines := remoteLines s (copyPlaces s c)
    (dropLines (countEvent (engineTouch k.s c.fin.part (copyTouches c)) 0xB (k.done / 8)) lines, k.status, k.done / 8)

/-- The command that a free channel takes (R277): of the highest level, the earliest. -/
def nextCopy (q : List CopyCmd) : Option CopyCmd :=
  q.foldl (fun b c => match b with
    | none => some c
    | some x => if x.fin.level < c.fin.level then some c else b) none

/-- A free copy channel. -/
def freeChannel (s : State) : Option Nat := (List.range 16).find? fun i => (s.eng.channels.get i).isNone

/-- COPY_START (R277): the accesses are made now, or at the completion, by a free choice. [log 26: DESIGN CHOICE; 27: DESIGN CHOICE] -/
def copyStarts (s : State) : State :=
  if enginesHeld s || enginesFrozen s then s
  else
    match nextCopy (s.eng.q1.filter fun c => accepts s 1 c.fin), freeChannel s with
    | some c, some ch =>
      let s := { s with eng := { s.eng with q1 := s.eng.q1.erase c } }
      let s := commandEvent (commandEvent s c.fin 1 0 0) c.fin 2 0 0
      let d := draw s 2
      if d.1 = 0 || !(copyMissing d.2 c).isEmpty then { d.2 with eng := { d.2.eng with channels := d.2.eng.channels.set ch (some c) } }
      else
        let r := performCopy d.2 c
        if replayInOrder d.2 r.1 then { r.1 with eng := { r.1.eng with channels := r.1.eng.channels.set ch (some { c with result := some r.2 }) } }
        else { d.2 with eng := { d.2.eng with channels := d.2.eng.channels.set ch (some c) } }
    | _, _ => s

/-- The end of a running copy, of a channel (R273); in replay its writes wait for their turn at the home
slices (R390). [log 26: DESIGN CHOICE] -/
def finishCopy (s : State) (ch : Nat) : State :=
  match s.eng.channels.get ch with
  | none => s
  | some c =>
    match c.result with
    | some r => completeOp { s with eng := { s.eng with channels := s.eng.channels.set ch none } } c.fin 0 0 r.1 r.2
    | none =>
      let miss := copyMissing s c
      if !miss.isEmpty then requestOnce s miss
      else
        let r := performCopy s c
        if !(replayInOrder s r.1) then s
        else completeOp { r.1 with eng := { r.1.eng with channels := r.1.eng.channels.set ch none } } c.fin 0 0 r.2.1 r.2.2

/-- COPY_START. -/
def execCopyStart (s : State) : Host.Outcome State Fault Refusal := .next (copyStarts s)

/-- COPY_COMPLETE (R273). A copy that runs when its core is saved in debug mode finishes (R362, R372). [log 75: DEDUCED] -/
def execCopyComplete (ch : BitVec 4) (s : State) : Host.Outcome State Fault Refusal :=
  .next (if (enginesFrozen s && s.cpu.saving.isNone) || s.cpu.away then s else finishCopy s ch.toNat)

end Sys2Proof.Machine
end

