-- ==== Sys2Proof/Machine/Flags.lean ====
section
/-! DEFINITION. Number formats, exact values, rounding, and every floating-point flag computation
(R102 to R118). A result is formed exactly and rounded once. -/

namespace Sys2Proof.Machine

/-! ## Flags (R31, R116) -/

/-- The five conditions of R116: NV, DZ, OF, UF, NX from bit 4 down. -/
abbrev Flags := BitVec 5
/-- No condition. -/
def flagNone : Flags := 0
/-- Invalid operation. -/
def flagNV : Flags := 16
/-- Division by zero. -/
def flagDZ : Flags := 8
/-- Overflow. -/
def flagOF : Flags := 4
/-- Underflow. -/
def flagUF : Flags := 2
/-- Inexact. -/
def flagNX : Flags := 1

/-- A flag when a condition holds. -/
def flagIf (c : Bool) (f : Flags) : Flags := if c then f else 0

/-- A bit pattern and the flags raised on the way to it. -/
structure Result where
  bits : Nat
  flags : Flags
  deriving DecidableEq, Repr

/-! ## Rounding modes (R114, R115) -/

/-- A rounding mode; SR carries the element's 32-bit hash. -/
inductive Mode where
  | rne
  | rtz
  | rdn
  | rup
  | rna
  | sr (h : Nat)
  deriving DecidableEq, Repr

/-- The mode of a code 000 to 100 of R114. -/
def modeOf (code : Nat) : Mode :=
  match code with
  | 1 => .rtz
  | 2 => .rdn
  | 3 => .rup
  | 4 => .rna
  | _ => .rne

/-- m / 2^sh rounded to an integer by a mode for a sign, and whether it was inexact (R114, R115). -/
def roundShift (mode : Mode) (neg : Bool) (m sh : Nat) : Nat × Bool :=
  let lo := m / 2 ^ sh
  let r := m % 2 ^ sh
  let up := match mode with
    | .rne => decide (2 ^ sh < 2 * r) || (decide (2 * r = 2 ^ sh) && decide (lo % 2 = 1))
    | .rtz => false
    | .rdn => neg
    | .rup => !neg
    | .rna => decide (2 ^ sh ≤ 2 * r)
    | .sr h => decide (h < r * 2 ^ 32 / 2 ^ sh)
  (if r ≠ 0 && up then lo + 1 else lo, decide (r ≠ 0))

/-! ## Formats (R102 to R108) -/

/-- The special encodings of a floating-point format (R106). -/
inductive Special where
  | ieee
  | e4m3
  | finite
  deriving DecidableEq, Repr

/-- A floating-point format: exponent bits, fraction bits and special encodings (R105, R106). -/
structure Format where
  eb : Nat
  fb : Nat
  special : Special
  deriving DecidableEq, Repr

/-- FP64. -/
def fp64 : Format := { eb := 11, fb := 52, special := .ieee }
/-- FP32. -/
def fp32 : Format := { eb := 8, fb := 23, special := .ieee }
/-- BF16. -/
def bf16 : Format := { eb := 8, fb := 7, special := .ieee }
/-- FP16. -/
def fp16 : Format := { eb := 5, fb := 10, special := .ieee }
/-- E5M2. -/
def e5m2 : Format := { eb := 5, fb := 2, special := .ieee }
/-- E4M3. -/
def e4m3 : Format := { eb := 4, fb := 3, special := .e4m3 }
/-- E3M4. -/
def e3m4 : Format := { eb := 3, fb := 4, special := .finite }
/-- E3M2. -/
def e3m2 : Format := { eb := 3, fb := 2, special := .finite }
/-- E2M3. -/
def e2m3 : Format := { eb := 2, fb := 3, special := .finite }
/-- E2M1. -/
def e2m1 : Format := { eb := 2, fb := 1, special := .finite }

/-- The bias of every format of R105. -/
def Format.bias (f : Format) : Nat := 2 ^ (f.eb - 1) - 1
/-- The width of an element in bits. -/
def Format.width (f : Format) : Nat := 1 + f.eb + f.fb
/-- The code of the largest finite magnitude (R105). -/
def Format.maxCode (f : Format) : Nat :=
  match f.special with
  | .ieee => (2 ^ f.eb - 1) * 2 ^ f.fb - 1
  | .e4m3 => 2 ^ (f.eb + f.fb) - 2
  | .finite => 2 ^ (f.eb + f.fb) - 1
/-- The code of infinity. -/
def Format.infCode (f : Format) : Nat := (2 ^ f.eb - 1) * 2 ^ f.fb
/-- The canonical NaN (R108). -/
def Format.nanCode (f : Format) : Nat :=
  match f.special with
  | .ieee => f.infCode + 2 ^ (f.fb - 1)
  | .e4m3 => 2 ^ (f.eb + f.fb) - 1
  | .finite => 0

/-- An exact value: NaN, an infinity, or ± m × 2^e. -/
inductive Num where
  | nan
  | inf (neg : Bool)
  | fin (neg : Bool) (m : Nat) (e : Int)
  deriving DecidableEq, Repr

/-- The sign bit of an element. -/
def Format.sign (f : Format) (x : Nat) : Bool := decide (x / 2 ^ (f.eb + f.fb) % 2 = 1)
/-- The bits below the sign. -/
def Format.magnitude (f : Format) (x : Nat) : Nat := x % 2 ^ (f.eb + f.fb)

/-- An element is a NaN (R106). -/
def Format.isNaN (f : Format) (x : Nat) : Bool :=
  match f.special with
  | .ieee => decide (f.infCode < f.magnitude x)
  | .e4m3 => decide (f.magnitude x = 2 ^ (f.eb + f.fb) - 1)
  | .finite => false

/-- An element is a signalling NaN (R106). -/
def Format.isSignalling (f : Format) (x : Nat) : Bool :=
  match f.special with
  | .ieee => f.isNaN x && decide (x / 2 ^ (f.fb - 1) % 2 = 0)
  | _ => false

/-- An element is an infinity. -/
def Format.isInf (f : Format) (x : Nat) : Bool := decide (f.special = .ieee) && decide (f.magnitude x = f.infCode)

/-- The value of an element (R104, R106). -/
def Format.decode (f : Format) (x : Nat) : Num :=
  let neg := f.sign x
  let mag := f.magnitude x
  if f.isNaN x then .nan
  else if f.isInf x then .inf neg
  else
    let e := mag / 2 ^ f.fb
    let m := mag % 2 ^ f.fb
    if e = 0 then .fin neg m (1 - (f.bias : Int) - f.fb)
    else .fin neg (2 ^ f.fb + m) ((e : Int) - f.bias - f.fb)

/-- A code with a sign. -/
def Format.signed (f : Format) (neg : Bool) (code : Nat) : Nat := bnat neg * 2 ^ (f.eb + f.fb) + code

/-- The code that a magnitude m × 2^e, m ≠ 0, rounds to with unbounded exponent, and whether it was
inexact (R114): (biased exponent − 1) × 2^F plus the rounded significand. -/
def Format.roundMag (f : Format) (mode : Mode) (neg : Bool) (m : Nat) (e : Int) : Nat × Bool :=
  let emin : Int := 1 - (f.bias : Int)
  let top := max ((Nat.log2 m : Int) + e) emin
  let q := top - f.fb
  let r := if q ≤ e then (m * 2 ^ (e - q).toNat, false) else roundShift mode neg m (q - e).toNat
  ((top - emin).toNat * 2 ^ f.fb + r.1, r.2)

/-- The delivered code of a finite overflow (R118). -/
def Format.overflow (f : Format) (mode : Mode) (nanOnOverflow neg : Bool) : Nat :=
  match f.special with
  | .ieee =>
    let toInf := match mode with
      | .rtz => false
      | .rdn => neg
      | .rup => !neg
      | _ => true
    f.signed neg (if toInf then f.infCode else f.maxCode)
  | .e4m3 => if nanOnOverflow then f.nanCode else f.signed neg f.maxCode
  | .finite => f.signed neg f.maxCode

/-- Rounding of an exact value into a format, with the flags of R116 (R114, R118). -/
def Format.round (f : Format) (mode : Mode) (nanOnOverflow : Bool) (v : Num) : Result :=
  match v with
  | .nan =>
    match f.special with
    | .finite => { bits := 0, flags := flagNV }
    | _ => { bits := f.nanCode, flags := 0 }
  | .inf neg =>
    match f.special with
    | .ieee => { bits := f.signed neg f.infCode, flags := 0 }
    | .e4m3 => { bits := if nanOnOverflow then f.nanCode else f.signed neg f.maxCode, flags := 0 }
    | .finite => { bits := f.signed neg f.maxCode, flags := 0 }
  | .fin neg m e =>
    if m = 0 then { bits := f.signed neg 0, flags := 0 }
    else
      let exact := f.roundMag .rtz neg m e
      let above := decide (f.maxCode < exact.1) || (decide (exact.1 = f.maxCode) && exact.2)
      let mode := match mode with
        | .sr h => if above then .rne else .sr h
        | k => k
      let r := f.roundMag mode neg m e
      if f.maxCode < r.1 then { bits := f.overflow mode nanOnOverflow neg, flags := flagOF ||| flagNX }
      else
        let tiny := decide ((Nat.log2 m : Int) + e < 1 - (f.bias : Int))
        { bits := f.signed neg r.1, flags := flagIf (tiny && r.2) flagUF ||| flagIf r.2 flagNX }

/-! ## Exact arithmetic (R127 to R129) -/

/-- A value as a multiple of 2^e for an exponent at or below its own. -/
def scaled (neg : Bool) (m : Nat) (e base : Int) : Int :=
  let v : Int := (m * 2 ^ (e - base).toNat : Nat)
  if neg then -v else v

/-- The exact sum of two finite values; an exact zero sum of opposite signs is +0, or −0 under RDN
(R128). -/
def addFin (mode : Mode) (n1 : Bool) (m1 : Nat) (e1 : Int) (n2 : Bool) (m2 : Nat) (e2 : Int) : Num :=
  if m1 = 0 && decide (m2 = 0) then .fin (if n1 = n2 then n1 else decide (mode = .rdn)) 0 0
  else if m1 = 0 then .fin n2 m2 e2
  else if m2 = 0 then .fin n1 m1 e1
  else
    let base := min e1 e2
    let v := scaled n1 m1 e1 base + scaled n2 m2 e2 base
    if v = 0 then .fin (decide (mode = .rdn)) 0 0 else .fin (decide (v < 0)) v.natAbs base

/-- The exact sum, and NV for ∞ − ∞ (R116, R128). -/
def addNum (mode : Mode) (a b : Num) : Num × Flags :=
  match a, b with
  | .nan, _ => (.nan, 0)
  | _, .nan => (.nan, 0)
  | .inf x, .inf y => if x = y then (.inf x, 0) else (.nan, flagNV)
  | .inf x, _ => (.inf x, 0)
  | _, .inf y => (.inf y, 0)
  | .fin n1 m1 e1, .fin n2 m2 e2 => (addFin mode n1 m1 e1 n2 m2 e2, 0)

/-- The negated value. -/
def negNum (a : Num) : Num :=
  match a with
  | .nan => .nan
  | .inf n => .inf (!n)
  | .fin n m e => .fin (!n) m e

/-- The exact product, and NV for 0 × ∞ (R116, R128). -/
def mulNum (a b : Num) : Num × Flags :=
  match a, b with
  | .nan, _ => (.nan, 0)
  | _, .nan => (.nan, 0)
  | .inf x, .inf y => (.inf (x != y), 0)
  | .inf x, .fin y m _ => if m = 0 then (.nan, flagNV) else (.inf (x != y), 0)
  | .fin x m _, .inf y => if m = 0 then (.nan, flagNV) else (.inf (x != y), 0)
  | .fin x m e, .fin y k g => (.fin (x != y) (m * k) (e + g), 0)

/-- The quotient of two magnitudes with 66 or more exact bits and a last bit that tells whether
anything follows; every format rounds it as the exact quotient. -/
def divMag (m1 : Nat) (e1 : Int) (m2 : Nat) (e2 : Int) : Nat × Int :=
  let k := Nat.log2 m2 + 66
  let q := m1 * 2 ^ k / m2
  let r := m1 * 2 ^ k % m2
  (2 * q + bnat (decide (r ≠ 0)), e1 - e2 - k - 1)

/-- The quotient, with NV and DZ (R116, R128). -/
def divNum (a b : Num) : Num × Flags :=
  match a, b with
  | .nan, _ => (.nan, 0)
  | _, .nan => (.nan, 0)
  | .inf _, .inf _ => (.nan, flagNV)
  | .inf x, .fin y _ _ => (.inf (x != y), 0)
  | .fin x _ _, .inf y => (.fin (x != y) 0 0, 0)
  | .fin x m1 e1, .fin y m2 e2 =>
    if m2 = 0 then (if m1 = 0 then (.nan, flagNV) else (.inf (x != y), flagDZ))
    else if m1 = 0 then (.fin (x != y) 0 0, 0)
    else
      let q := divMag m1 e1 m2 e2
      (.fin (x != y) q.1 q.2, 0)

/-- The integer square root by bits: the largest r below 2^n with r² ≤ x. -/
def sqrtFloor (x : Nat) : Nat → Nat → Nat
  | 0, r => r
  | n + 1, r => if (r + 2 ^ n) * (r + 2 ^ n) ≤ x then sqrtFloor x n (r + 2 ^ n) else sqrtFloor x n r

/-- The square root of a magnitude, with more bits than any format keeps and a last bit that tells
whether anything follows. -/
def sqrtMag (m : Nat) (e : Int) : Nat × Int :=
  let odd := decide (e % 2 ≠ 0)
  let x := m * 2 ^ (130 + bnat odd)
  let r := sqrtFloor x (Nat.log2 x / 2 + 1) 0
  (2 * r + bnat (decide (r * r ≠ x)), (e - bnat odd - 130) / 2 - 1)

/-- The square root, with NV (R128). -/
def sqrtNum (a : Num) : Num × Flags :=
  match a with
  | .nan => (.nan, 0)
  | .inf n => if n then (.nan, flagNV) else (.inf false, 0)
  | .fin n m e =>
    if m = 0 then (.fin n 0 0, 0)
    else if n then (.nan, flagNV)
    else
      let r := sqrtMag m e
      (.fin false r.1 r.2, 0)

/-- NV for signalling operands (R108, R116). -/
def Format.signalling (f : Format) (xs : List Nat) : Flags := flagIf (xs.any fun x => f.isSignalling x) flagNV

/-- Round the outcome of an exact operation on operands of a format. -/
def Format.finishOp (f : Format) (mode : Mode) (xs : List Nat) (v : Num × Flags) : Result :=
  let r := f.round mode false v.1
  { bits := r.bits, flags := r.flags ||| v.2 ||| f.signalling xs }

/-- Addition (R127). -/
def Format.add (f : Format) (mode : Mode) (a b : Nat) : Result := f.finishOp mode [a, b] (addNum mode (f.decode a) (f.decode b))
/-- Subtraction (R127). -/
def Format.sub (f : Format) (mode : Mode) (a b : Nat) : Result := f.finishOp mode [a, b] (addNum mode (f.decode a) (negNum (f.decode b)))
/-- Multiplication (R127). -/
def Format.mul (f : Format) (mode : Mode) (a b : Nat) : Result := f.finishOp mode [a, b] (mulNum (f.decode a) (f.decode b))
/-- Division (R127). -/
def Format.div (f : Format) (mode : Mode) (a b : Nat) : Result := f.finishOp mode [a, b] (divNum (f.decode a) (f.decode b))
/-- Square root (R127). -/
def Format.sqrt (f : Format) (mode : Mode) (a : Nat) : Result := f.finishOp mode [a] (sqrtNum (f.decode a))
/-- a × b + c with one rounding (R129). -/
def Format.fma (f : Format) (mode : Mode) (a b c : Nat) : Result :=
  let p := mulNum (f.decode a) (f.decode b)
  let v := addNum mode p.1 (f.decode c)
  f.finishOp mode [a, b, c] (v.1, p.2 ||| v.2)

/-- The order of two elements that are no NaN, −0 below +0 (R108). -/
def Format.key (f : Format) (x : Nat) : Int := if f.sign x then -(f.magnitude x : Int) - 1 else f.magnitude x
/-- The order of two elements as numbers: −0 equals +0. -/
def Format.rank (f : Format) (x : Nat) : Int := if f.sign x then -(f.magnitude x : Int) else f.magnitude x

/-- Minimum (R108, R132). -/
def Format.min (f : Format) (a b : Nat) : Result :=
  if f.isNaN a || f.isNaN b then { bits := f.nanCode, flags := f.signalling [a, b] }
  else { bits := if f.key b < f.key a then b else a, flags := 0 }
/-- Maximum (R108, R132). -/
def Format.max (f : Format) (a b : Nat) : Result :=
  if f.isNaN a || f.isNaN b then { bits := f.nanCode, flags := f.signalling [a, b] }
  else { bits := if f.key a < f.key b then b else a, flags := 0 }

/-- The conditions of FCMP: 0 equal, 1 less, 2 less or equal, 3 unordered (R133). -/
def Format.compare (f : Format) (c a b : Nat) : Bool × Flags :=
  let nan := f.isNaN a || f.isNaN b
  let sig := f.signalling [a, b]
  match c with
  | 0 => (!nan && decide (f.rank a = f.rank b), sig)
  | 1 => (!nan && decide (f.rank a < f.rank b), flagIf nan flagNV)
  | 2 => (!nan && decide (f.rank a ≤ f.rank b), flagIf nan flagNV)
  | _ => (nan, sig)

/-- Finite and without a fraction (R134). -/
def isInteger (v : Num) : Bool :=
  match v with
  | .fin _ m e => decide (m = 0) || decide (0 ≤ e) || decide (m % 2 ^ (-e).toNat = 0)
  | _ => false

/-- The class word of FCLASS (R134). -/
def Format.classWord (f : Format) (x : Nat) : Nat :=
  let mag := f.magnitude x
  let kind :=
    if f.isSignalling x then 5 else if f.isNaN x then 4 else if f.isInf x then 3
    else if mag = 0 then 0 else if mag / 2 ^ f.fb = 0 then 1 else 2
  kind + 16 * bnat (f.sign x) + 32 * bnat (isInteger (f.decode x))

/-! ## Conversions (R117, R118) -/

/-- A type of a conversion: floating point, or an integer of a width. -/
inductive NumType where
  | float (f : Format)
  | int (signed : Bool) (w : Nat)
  deriving DecidableEq, Repr

/-- The width of a type in bits. -/
def NumType.width (t : NumType) : Nat :=
  match t with
  | .float f => f.width
  | .int _ w => w

/-- The exact value of an element (R104, R109). -/
def NumType.decode (t : NumType) (x : Nat) : Num :=
  match t with
  | .float f => f.decode x
  | .int sg w =>
    let v := x % 2 ^ w
    if sg && decide (2 ^ (w - 1) ≤ v) then .fin true (2 ^ w - v) 0 else .fin false v 0

/-- A signalling NaN element. -/
def NumType.isSignalling (t : NumType) (x : Nat) : Bool :=
  match t with
  | .float f => f.isSignalling x
  | .int _ _ => false

/-- Rounding to an integer type with saturation; NV excludes NX (R116, R118). Under SR the largest finite value of a
negative value is the bound on its own side (R115). [log 84: DESIGN CHOICE] -/
def roundInt (sg : Bool) (w : Nat) (mode : Mode) (v : Num) : Result :=
  let top := if sg then 2 ^ (w - 1) - 1 else 2 ^ w - 1
  let low := if sg then 2 ^ (w - 1) else 0
  match v with
  | .nan => { bits := 0, flags := flagNV }
  | .inf neg => { bits := if neg then low else top, flags := flagNV }
  | .fin neg m e =>
    let mode := match mode with
      | .sr h => if decide (0 ≤ e) || decide ((if neg then low else top) < m / 2 ^ (-e).toNat)
          || (decide ((if neg then low else top) = m / 2 ^ (-e).toNat) && decide (m % 2 ^ (-e).toNat ≠ 0)) then .rne else .sr h
      | k => k
    let r := if 0 ≤ e then (m * 2 ^ e.toNat, false) else roundShift mode neg m (-e).toNat
    if neg then
      if low < r.1 then { bits := low, flags := flagNV }
      else { bits := (2 ^ w - r.1) % 2 ^ w, flags := flagIf r.2 flagNX }
    else if top < r.1 then { bits := top, flags := flagNV }
    else { bits := r.1, flags := flagIf r.2 flagNX }

/-- A conversion (R117, R118): the source's exact value rounded once. -/
def convert (dst src : NumType) (mode : Mode) (nanOnOverflow : Bool) (x : Nat) : Result :=
  let v := src.decode x
  let r := match dst with
    | .float f => f.round mode nanOnOverflow v
    | .int sg w => roundInt sg w mode v
  { bits := r.bits, flags := r.flags ||| flagIf (src.isSignalling x) flagNV }

/-! ## Format codes and packed elements (R102, R103, R109) -/

/-- The type of a format code that packs one value in a fixed number of bits (R102). -/
def codeType (code : Nat) : Option NumType :=
  match code with
  | 0x00 => some (.float fp32)
  | 0x01 => some (.float bf16)
  | 0x02 => some (.float fp16)
  | 0x03 => some (.float e5m2)
  | 0x04 | 0x0B => some (.float e4m3)
  | 0x05 => some (.float e3m4)
  | 0x06 | 0x0C => some (.float e3m2)
  | 0x07 => some (.float e2m3)
  | 0x08 | 0x09 | 0x0A => some (.float e2m1)
  | 0x0D => some (.int true 8)
  | 0x0E => some (.int false 8)
  | 0x0F => some (.int true 4)
  | 0x10 => some (.int false 4)
  | 0x11 => some (.int true 2)
  | _ => none

/-- A whole number as an exact value. -/
def intNum (v : Int) : Num := .fin (decide (v < 0)) v.natAbs 0

/-- Element `i` of a bit stream under a stored format code: its value, whether the data is reserved
(R110), and whether it is a signalling NaN (R103, R104, R109). -/
def streamElement (code stream i : Nat) : Num × Bool × Bool :=
  match codeType code with
  | some t =>
    let x := stream / 2 ^ (i * t.width) % 2 ^ t.width
    (t.decode x, false, t.isSignalling x)
  | none =>
    if code = 0x12 then
      let v := stream / 2 ^ (i / 5 * 8) % 256
      if 243 ≤ v then (.fin false 0 0, true, false) else (intNum ((v / 3 ^ (i % 5) % 3 : Nat) - 1), false, false)
    else (intNum (if stream / 2 ^ i % 2 = 1 then 1 else -1), false, false)

/-- An exact value in a type, rounded once (R117, R118). -/
def NumType.round (t : NumType) (mode : Mode) (nanOnOverflow : Bool) (v : Num) : Result :=
  match t with
  | .float f => f.round mode nanOnOverflow v
  | .int sg w => roundInt sg w mode v

end Sys2Proof.Machine
end

