-- ==== Sys2Proof/Machine/Float.lean ====
section
/-! DEFINITION. The scalar floating-point instructions (R125 to R136). -/

namespace Sys2Proof.Machine

/-- OR the flags of an operation into FPCTL of the current level (R126). -/
def raiseFlags (s : State) (f : Flags) : State :=
  if f = 0 then s else writeFpctl s (readFpctl s ||| at_ 5 f.toNat)

/-- The mode in FPCTL.RM (R31, R126). -/
def currentMode (s : State) : Mode := modeOf (field (readFpctl s) 0 3)

/-- The mode of an rm3 field: 111 selects FPCTL.RM (R52, R114). -/
def roundingMode (s : State) (m : BitVec 3) : Mode := if m = 7 then currentMode s else modeOf m.toNat

/-- FP32 or FP64 by a precision code (R49, R52). -/
def scalarFormat {n : Nat} (f : BitVec n) : Format := if f.toNat = 1 then fp64 else fp32

/-- The operand that a register holds: its low bits (R125). -/
def floatOf (f : Format) (x : Word) : Nat := x.toNat % 2 ^ f.width

/-- Write a result, zero-extended, and raise its flags (R125, R126). -/
def floatInto (d : Reg) (s : State) (r : Result) : Res := .ok (writeX (raiseFlags s r.flags) d (word r.bits))

/-- An operation on two registers (R127). -/
def floatReg2 (d a b : Reg) (f m : BitVec 3) (op : Format → Mode → Nat → Nat → Result) (s : State) : Res :=
  let g := scalarFormat f
  floatInto d s (op g (roundingMode s m) (floatOf g (readX s a)) (floatOf g (readX s b)))

/-- An operation with a constant-window entry, rounded by FPCTL.RM (R130). -/
def floatConst (d : Reg) (i : BitVec 8) (p : BitVec 1) (op : State → Format → Mode → Nat → Result) (s : State) : Res :=
  (constantOf s i).run fun s cw =>
    let g := scalarFormat p
    floatInto d s (op s g (currentMode s) (floatOf g cw))

/-- The FP32 pattern of an F-form immediate (R131). -/
def immediate (i : BitVec 20) : Nat := i.toNat * 4096

/-- The magnitude of the first operand with a new sign bit; a NaN becomes canonical (R135). -/
def Format.withSign (f : Format) (g : Bool → Bool → Bool) (a b : Nat) : Result :=
  if f.isNaN a then { bits := f.nanCode, flags := f.signalling [a] }
  else { bits := f.signed (g (f.sign a) (f.sign b)) (f.magnitude a), flags := 0 }

/-- The types of FCVT by code (R52). -/
def scalarType (t : BitVec 3) : NumType :=
  match t.toNat with
  | 0 => .float fp32
  | 1 => .float fp64
  | 2 => .int true 32
  | 3 => .int false 32
  | 4 => .int true 64
  | 5 => .int false 64
  | 6 => .float bf16
  | _ => .float fp16

/-- A converted value in a register: INT32 is sign-extended, every other type zero-extended (R125). -/
def placeResult (t : NumType) (bits : Nat) : Word :=
  match t with
  | .int true 32 => sext 32 bits
  | _ => word bits

/-- FADD with a constant-window entry (R130). -/
def execFaddK (d a : Reg) (p : BitVec 1) (i : BitVec 8) (s : State) : Host.Outcome State Fault Refusal :=
  runInstr (.faddK d a p i) (floatConst d i p fun s f k c => f.add k (floatOf f (readX s a)) c) s

/-- FMUL with a constant-window entry (R130). -/
def execFmulK (d a : Reg) (p : BitVec 1) (i : BitVec 8) (s : State) : Host.Outcome State Fault Refusal :=
  runInstr (.fmulK d a p i) (floatConst d i p fun s f k c => f.mul k (floatOf f (readX s a)) c) s

/-- FFMA with a constant-window entry (R130): rd × ra + cw. -/
def execFfmaK (d a : Reg) (p : BitVec 1) (i : BitVec 8) (s : State) : Host.Outcome State Fault Refusal :=
  runInstr (.ffmaK d a p i) (floatConst d i p fun s f k c => f.fma k (floatOf f (readX s d)) (floatOf f (readX s a)) c) s

/-- FSUB with a constant-window entry (R130). -/
def execFsubK (d a : Reg) (p : BitVec 1) (i : BitVec 8) (s : State) : Host.Outcome State Fault Refusal :=
  runInstr (.fsubK d a p i) (floatConst d i p fun s f k c => f.sub k (floatOf f (readX s a)) c) s

/-- FLI (R131): a NaN pattern becomes the canonical NaN. -/
def execFli (d : Reg) (i : BitVec 20) (s : State) : Host.Outcome State Fault Refusal :=
  runInstr (.fli d i) (fun s => .ok (writeX s d (word (if fp32.isNaN (immediate i) then fp32.nanCode else immediate i)))) s

/-- FADDI (R131). -/
def execFaddi (d : Reg) (i : BitVec 20) (s : State) : Host.Outcome State Fault Refusal :=
  runInstr (.faddi d i) (fun s => floatInto d s (fp32.add (currentMode s) (floatOf fp32 (readX s d)) (immediate i))) s

/-- FMULI (R131). -/
def execFmuli (d : Reg) (i : BitVec 20) (s : State) : Host.Outcome State Fault Refusal :=
  runInstr (.fmuli d i) (fun s => floatInto d s (fp32.mul (currentMode s) (floatOf fp32 (readX s d)) (immediate i))) s

/-- FADD (R127, R128). -/
def execFadd (d a b : Reg) (f m : BitVec 3) (s : State) : Host.Outcome State Fault Refusal :=
  runInstr (.fadd d a b f m) (floatReg2 d a b f m Format.add) s

/-- FSUB (R127, R128). -/
def execFsub (d a b : Reg) (f m : BitVec 3) (s : State) : Host.Outcome State Fault Refusal :=
  runInstr (.fsub d a b f m) (floatReg2 d a b f m Format.sub) s

/-- FMUL (R127, R128). -/
def execFmul (d a b : Reg) (f m : BitVec 3) (s : State) : Host.Outcome State Fault Refusal :=
  runInstr (.fmul d a b f m) (floatReg2 d a b f m Format.mul) s

/-- FDIV (R127, R128). -/
def execFdiv (d a b : Reg) (f m : BitVec 3) (s : State) : Host.Outcome State Fault Refusal :=
  runInstr (.fdiv d a b f m) (floatReg2 d a b f m Format.div) s

/-- FSQRT (R127, R128). -/
def execFsqrt (d a : Reg) (f m : BitVec 3) (s : State) : Host.Outcome State Fault Refusal :=
  runInstr (.fsqrt d a f m) (fun s => floatInto d s ((scalarFormat f).sqrt (roundingMode s m) (floatOf (scalarFormat f) (readX s a)))) s

/-- FMIN (R132). -/
def execFmin (d a b : Reg) (f : BitVec 3) (s : State) : Host.Outcome State Fault Refusal :=
  runInstr (.fmin d a b f) (floatReg2 d a b f 0 fun g _ => g.min) s

/-- FMAX (R132). -/
def execFmax (d a b : Reg) (f : BitVec 3) (s : State) : Host.Outcome State Fault Refusal :=
  runInstr (.fmax d a b f) (floatReg2 d a b f 0 fun g _ => g.max) s

/-- FCMP (R133). -/
def execFcmp (d a b : Reg) (f : BitVec 3) (c : BitVec 2) (s : State) : Host.Outcome State Fault Refusal :=
  runInstr (.fcmp d a b f c) (fun s =>
    let g := scalarFormat f
    let r := g.compare c.toNat (floatOf g (readX s a)) (floatOf g (readX s b))
    floatInto d s { bits := bnat r.1, flags := r.2 }) s

/-- FCLASS (R134). -/
def execFclass (d a : Reg) (f : BitVec 3) (s : State) : Host.Outcome State Fault Refusal :=
  runInstr (.fclass d a f) (fun s => .ok (writeX s d (word ((scalarFormat f).classWord (floatOf (scalarFormat f) (readX s a)))))) s

/-- FSGN (R135). -/
def execFsgn (d a b : Reg) (f : BitVec 3) (s : State) : Host.Outcome State Fault Refusal :=
  runInstr (.fsgn d a b f) (floatReg2 d a b f 0 fun g _ => g.withSign fun _ y => y) s

/-- FSGNN (R135). -/
def execFsgnn (d a b : Reg) (f : BitVec 3) (s : State) : Host.Outcome State Fault Refusal :=
  runInstr (.fsgnn d a b f) (floatReg2 d a b f 0 fun g _ => g.withSign fun _ y => !y) s

/-- FSGNX (R135). -/
def execFsgnx (d a b : Reg) (f : BitVec 3) (s : State) : Host.Outcome State Fault Refusal :=
  runInstr (.fsgnx d a b f) (floatReg2 d a b f 0 fun g _ => g.withSign fun x y => x != y) s

/-- FCVT (R136). -/
def execFcvt (d a : Reg) (t f m : BitVec 3) (s : State) : Host.Outcome State Fault Refusal :=
  runInstr (.fcvt d a t f m) (fun s =>
    let r := convert (scalarType t) (scalarType f) (roundingMode s m) false ((readX s a).toNat % 2 ^ (scalarType f).width)
    .ok (writeX (raiseFlags s r.flags) d (placeResult (scalarType t) r.bits))) s

/-- FFMA (R129). -/
def execFfma (d a b c : Reg) (f : BitVec 1) (m : BitVec 3) (s : State) : Host.Outcome State Fault Refusal :=
  runInstr (.ffma d a b c f m) (fun s =>
    let g := scalarFormat f
    floatInto d s (g.fma (roundingMode s m) (floatOf g (readX s a)) (floatOf g (readX s b)) (floatOf g (readX s c)))) s

end Sys2Proof.Machine
end

