-- ==== Sys2Proof/Machine/Generators.lean ====
section
/-! DEFINITION. Generator registers: validity, the hash, the scoped seed, the kinds, and GSET, GGET and
GDRAW (R295 to R304, R333, R334). -/

namespace Sys2Proof.Machine

/-- A 32-bit field of a register. -/
def field32 {w : Nat} (x : BitVec w) (lo : Nat) : BitVec 32 := BitVec.ofNat 32 (x.toNat / 2 ^ lo)

/-- KIND, MODE, SCOPE and P0, P1 of a generator word (R295). -/
def genKind (g : BitVec 256) : Nat := field g 0 5
/-- MODE. -/
def genMode (g : BitVec 256) : Nat := field g 12 4
/-- P0. -/
def genP0 (g : BitVec 256) : Nat := field g 128 32
/-- P1. -/
def genP1 (g : BitVec 256) : Nat := field g 96 32

/-- A generator register is valid (R296). -/
def genValid (g : BitVec 256) : Bool :=
  decide (field g 24 8 = 0x6E) && decide (0x14 ≤ genKind g) && decide (genKind g ≤ 0x17)
    && decide (field g 5 7 = 0) && decide (field g 16 1 = 0) && decide (field g 20 4 = 0) && decide (field g 40 56 = 0)
    && (decide (genMode g = 0) || (decide (genKind g = 0x17) && decide (genMode g ≤ 3)))
    && (decide (genKind g ≠ 0x16) ||
      (decide (1 ≤ genP1 g) && decide (genP1 g ≤ 4096) && decide (genP0 g % 4 = 0) && decide (genP0 g + 4 * genP1 g ≤ 0x100000)))
    && (decide (genKind g ≠ 0x17) || decide (genMode g ≠ 3) || (decide (genP0 g < 0x100000) && decide (field g 101 11 = 0)))

/-- fenmix, F(S, i, j, k) (R297). -/
def fenmix (seed i j k : BitVec 32) : BitVec 32 :=
  let h := (seed ^^^ (i * 0x8D2F5A67)) + j * 0xC3A91E5B + k
  let h := h ^^^ (h >>> 15)
  let h := h * 0x7F4B9A3D
  let h := h ^^^ (h >>> 13)
  let h := h * 0x8D2F5A67
  h ^^^ (h >>> 16)

/-- The entry of the constant window that a scope reads (R298). -/
def scopeEntry (g : BitVec 256) : Option Nat :=
  match field g 18 2 with
  | 1 => some 194
  | 2 => some 192
  | _ => none

/-- The scoped seed S of a generator in the running frame (R298). -/
def scopedSeed (s : State) (g : BitVec 256) : BitVec 32 :=
  let from_ := fun (u : Word) => fenmix (field32 g 224) (field32 u 0) (field32 u 32) 0
  match field g 18 2 with
  | 0 => field32 g 224
  | 3 => from_ (taskIdWord s)
  | _ => from_ (constant s ((scopeEntry g).getD 0))

/-- A generator with its resolved seed. -/
def resolveGen (s : State) (g : BitVec 256) : Generator := { word := g, seed := scopedSeed s g }

/-- The logical coordinates (i, j) of a position (R300). -/
def genCoord (g : BitVec 256) (x y : BitVec 32) : BitVec 32 × BitVec 32 :=
  if bit g 17 then (field32 g 192 + x, field32 g 160 + y) else (field32 g 192 + y, field32 g 160 + x)

/-- The hash h at a position (R300). -/
def genHash (g : Generator) (x y : BitVec 32) : BitVec 32 :=
  let c := genCoord g.word x y
  fenmix g.seed c.1 c.2 (BitVec.ofNat 32 (field g.word 32 8))

/-- The bytes of own local memory that the value at a position reads: first address and length
(R301, R302). -/
def genReads (g : Generator) (x y : BitVec 32) : Option (Nat × Nat) :=
  let c := genCoord g.word x y
  if genKind g.word = 0x16 then some (genP0 g.word + 4 * (c.2.toNat % genP1 g.word), 4)
  else if genKind g.word = 0x17 && decide (genMode g.word = 3) then
    let sh := genP1 g.word % 32
    let w := genP1 g.word / 65536
    let q := (c.1.toNat / 2 ^ sh) * w + c.2.toNat / 2 ^ sh
    if w ≤ c.2.toNat / 2 ^ sh || decide (0x100000 ≤ genP0 g.word + q / 8) then none
    else some (genP0 g.word + q / 8, 1)
  else none

/-- atan(2^−n) in turns × 2^32, the table A of R302. -/
def cordicAngles : List (BitVec 32) :=
  [536870912, 316933406, 167458907, 85004756, 42667331, 21354465, 10679838, 5340245, 2670163, 1335087, 667544, 333772]
    ++ [166886, 83443, 41722, 20861, 10430, 5215, 2608, 1304, 652, 326, 163, 81]

/-- The iterations of R302 from a step on. -/
def cordicSteps : List (BitVec 32) → Nat → BitVec 32 → BitVec 32 → BitVec 32 → BitVec 32 × BitVec 32
  | [], _, x, y, _ => (x, y)
  | a :: as, n, x, y, z =>
    if z.msb then cordicSteps as (n + 1) (x + y.sshiftRight n) (y - x.sshiftRight n) (z + a)
    else cordicSteps as (n + 1) (x - y.sshiftRight n) (y + x.sshiftRight n) (z - a)

/-- A signed value with 30 fraction bits rounded to BF16 by RNE. -/
def roundTurn (x : BitVec 32) : Nat :=
  (bf16.round .rne false (.fin x.msb x.toInt.natAbs (-30))).bits

/-- The pair (cos, sin) of an angle in turns × 2^32 (R302). -/
def rotation (t : BitVec 32) : Nat × Nat :=
  let z := BitVec.ofNat 32 (field t 0 30)
  let xy := cordicSteps cordicAngles 0 0x26DD3B6A 0 z
  let cs := if z = 0 then (0x3F80, 0) else (roundTurn xy.1, roundTurn xy.2)
  let neg := fun (v : Nat) => if v = 0 then 0 else v ^^^ 0x8000
  match field t 30 2 with
  | 0 => cs
  | 1 => (neg cs.2, cs.1)
  | 2 => (neg cs.1, neg cs.2)
  | _ => (cs.2, neg cs.1)

/-- The value of a generator: an integer for RSIGN, MASK and NNORM (there × 2^7), or a pair of BF16
patterns. -/
inductive Drawn where
  | int (v : Int)
  | pair (cos sin : Nat)
  deriving DecidableEq, Repr

/-- The value at a position; `bytes` are what genReads names (R301, R302). -/
def genValue (g : Generator) (bytes : List Byte) (x y : BitVec 32) : Drawn :=
  let h := genHash g x y
  let c := genCoord g.word x y
  match genKind g.word with
  | 0x14 => .int (if h.msb then -1 else 1)
  | 0x15 => .int ((field h 0 8 + field h 8 8 + field h 16 8 + field h 24 8 : Nat) - 510)
  | 0x16 => let r := rotation (c.1 * BitVec.ofNat 32 (ofBytes bytes)); .pair r.1 r.2
  | _ =>
    .int (match genMode g.word with
      | 0 => if c.2.toNat ≤ c.1.toNat then 1 else 0
      | 1 =>
        let t := (c.1 - c.2).toInt
        if decide ((field32 g.word 128).toInt ≤ t) && decide (t ≤ (field32 g.word 96).toInt) then 1 else 0
      | 2 => if h.toNat < genP0 g.word then 1 else 0
      | _ =>
        let sh := genP1 g.word % 32
        let q := (c.1.toNat / 2 ^ sh) * (genP1 g.word / 65536) + c.2.toNat / 2 ^ sh
        if bit (BitVec.ofNat 8 (ofBytes bytes)) (q % 8) then 1 else 0)

/-- The bytes that a value reads, in the core's own local memory. -/
def genBytes (s : State) (g : Generator) (x y : BitVec 32) : List Byte :=
  match genReads g x y with
  | some (a, n) => getLocals s (ownKey s a) n
  | none => []

/-- The value at a position, read now (R303). -/
def drawNow (s : State) (g : Generator) (x y : BitVec 32) : Drawn := genValue g (genBytes s g x y) x y

/-- What prevents an instruction from reading the values at some positions: the identity word or the
table overlaps a stash region (R206) or is poisoned (R223). -/
def genTrap (s : State) (g : BitVec 256) (at_ : List (BitVec 32 × BitVec 32)) : Option (BitVec 8 × Word) :=
  let gen := resolveGen s g
  let reads := at_.filterMap fun p => genReads gen p.1 p.2
  if reads.any fun r => inStash s (ownKey s r.1) r.2 then some (causeAccess, word (genP0 g))
  else
    match (((scopeEntry g).map fun e => (8 * e, 8)).toList ++ reads).find? (fun (r : Nat × Nat) => localPoison s (ownKey s r.1) r.2) with
    | some r => some (causePoison, word r.1)
    | none => none

/-- Use a generator at some positions: RSVD when it is not valid (R296). -/
def withGen (s : State) (g : BitVec 256) (at_ : List (BitVec 32 × BitVec 32)) (f : Generator → Res) : Res :=
  if !genValid g then .rsvd s
  else
    match genTrap s g at_ with
    | some (c, v) => .trap s c v
    | none => f (resolveGen s g)

/-- v of GDRAW (R334). -/
def drawnWord (v : Drawn) : BitVec 32 :=
  match v with
  | .int k => BitVec.ofInt 32 k
  | .pair c n => BitVec.ofNat 32 (n * 65536 + c)

/-- GSET (R333). -/
def gsetBody (a : Reg) (g : BitVec 3) (s : State) : Res :=
  let x := readX s a
  if x.toNat % 32 ≠ 0 then .trap s causeMisalign x
  else (load s x 32).run fun s bs => .ok (writeG s g.toNat (BitVec.ofNat 256 (ofBytes bs)))

/-- GGET (R333). -/
def ggetBody (a : Reg) (g : BitVec 3) (s : State) : Res :=
  let x := readX s a
  if x.toNat % 32 ≠ 0 then .trap s causeMisalign x
  else (store s x (toBytes 32 (readG s g.toNat).toNat)).run fun s _ => .ok s

/-- GDRAW (R334): X(rd) := h :: v. -/
def gdrawBody (d a : Reg) (g : BitVec 3) (s : State) : Res :=
  let x := field32 (readX s a) 0
  let y := field32 (readX s a) 32
  withGen s (readG s g.toNat) [(x, y)] fun gen =>
    .ok (writeX s d (at_ 32 (genHash gen x y).toNat ||| zextField (drawnWord (drawNow s gen x y))))

/-- GSET (R333). -/
def execGset (a : Reg) (g : BitVec 3) (s : State) : Host.Outcome State Fault Refusal :=
  runInstr (.gset a g) (gsetBody a g) s

/-- GGET (R333). -/
def execGget (a : Reg) (g : BitVec 3) (s : State) : Host.Outcome State Fault Refusal :=
  runInstr (.gget a g) (ggetBody a g) s

/-- GDRAW (R334). -/
def execGdraw (d a : Reg) (g : BitVec 3) (s : State) : Host.Outcome State Fault Refusal :=
  runInstr (.gdraw d a g) (gdrawBody d a g) s

end Sys2Proof.Machine
end

