-- ==== Sys2Proof/Machine/Vector.lean ====
section
/-! DEFINITION. The vector instructions: lanes, masks, arithmetic, compares, conversions, reductions,
generated lanes and vector memory accesses (R180 to R198). -/

namespace Sys2Proof.Machine

/-! ## Lanes and masks (R180, R184) -/

/-- The type of a lane by its et code (R180). -/
def laneType (e : BitVec 3) : NumType :=
  match e.toNat with
  | 0 => .int true 8
  | 1 => .int true 16
  | 2 => .int true 32
  | 3 => .int true 64
  | 4 => .float bf16
  | 5 => .float fp16
  | 6 => .float fp32
  | _ => .float fp64

/-- w, the width of a lane in bits. -/
def laneWidth (e : BitVec 3) : Nat := (laneType e).width

/-- n, the number of lanes. -/
def laneCount (e : BitVec 3) : Nat := 512 / laneWidth e

/-- Lane i of a register. -/
def lane (x : BitVec 512) (w i : Nat) : Nat := x.toNat / 2 ^ (w * i) % 2 ^ w

/-- A register of the given lanes, lane 0 first. -/
def joinLanes (w : Nat) (l : List Nat) : BitVec 512 := BitVec.ofNat 512 (l.foldr (fun x r => x % 2 ^ w + 2 ^ w * r) 0)

/-- Lane i is active: every lane with k = 0, else by its bit of kk (R184). -/
def isActive (s : State) (k : BitVec 3) (i : Nat) : Bool := decide (k = 0) || bit (readK s k.toNat) i

/-- The signed value of a lane. -/
def signedLane (w x : Nat) : Int := if 2 ^ (w - 1) ≤ x then (x : Int) - 2 ^ w else x

/-- A whole number in a lane, wrapping. -/
def wrapLane (w : Nat) (v : Int) : Nat := (v % 2 ^ w).toNat

/-- A whole number in a lane, saturated to the signed range (R185). -/
def saturate (w : Nat) (v : Int) : Nat :=
  if v < -(2 ^ (w - 1)) then 2 ^ (w - 1) else if (2 : Int) ^ (w - 1) ≤ v then 2 ^ (w - 1) - 1 else wrapLane w v

/-- A lane without flags. -/
def plain (bits : Nat) : Result := { bits := bits, flags := 0 }

/-- The flags of several results. -/
def allFlags (l : List Result) : Flags := l.foldl (fun f r => f ||| r.flags) 0

/-- vd's active lanes take f of their number and old value; flags of active lanes are raised
(R182, R184). -/
def eachLane (d : BitVec 4) (k e : BitVec 3) (f : Nat → Nat → Result) (s : State) : Res :=
  let w := laneWidth e
  let old := readV s d.toNat
  let rs := (List.range (laneCount e)).map fun i => if isActive s k i then f i (lane old w i) else plain (lane old w i)
  .ok (writeV (raiseFlags s (allFlags rs)) d.toNat (joinLanes w (rs.map (·.bits))))

/-- An operation on the lanes of two registers: f of the type, the mode, a, b and the old d. -/
def laneOp (d a b : BitVec 4) (k e : BitVec 3) (f : NumType → Mode → Nat → Nat → Nat → Result) (s : State) : Res :=
  let w := laneWidth e
  let x := readV s a.toNat
  let y := readV s b.toNat
  let m := currentMode s
  eachLane d k e (fun i old => f (laneType e) m (lane x w i) (lane y w i) old) s

/-- An operation with an integer and a floating-point meaning (R185). -/
def byClass (int : Nat → Int → Int → Nat) (float : Format → Mode → Nat → Nat → Result) (t : NumType) (m : Mode) (a b _old : Nat) : Result :=
  match t with
  | .int _ w => plain (int w (signedLane w a) (signedLane w b))
  | .float f => float f m a b

/-- A bitwise or shift operation on lane patterns. -/
def onBits (f : Nat → Nat → Nat → Nat) (t : NumType) (_m : Mode) (a b _old : Nat) : Result := plain (f t.width a b)

/-- The shift amount of a lane: the low log2(w) bits of b (R185). -/
def laneShift (w b : Nat) : Nat := b % w

/-- VFMA (R129, R185). -/
def laneFma (t : NumType) (m : Mode) (a b old : Nat) : Result :=
  match t with
  | .float f => f.fma m a b old
  | .int _ _ => plain old

/-- VABS (R185). -/
def laneAbs (t : NumType) (_m : Mode) (a _b _old : Nat) : Result :=
  match t with
  | .int _ w => plain (wrapLane w (signedLane w a).natAbs)
  | .float f => f.withSign (fun _ _ => false) a a

/-! ## Compares, selection and masks (R186 to R188) -/

/-- A compare into mask register kd: bit i is 1 for an active lane whose condition holds (R186). -/
def laneCompare (d : BitVec 3) (a b : BitVec 4) (k e : BitVec 3) (int : Nat → Nat → Nat → Bool) (cond : Nat) (s : State) : Res :=
  let w := laneWidth e
  let x := readV s a.toNat
  let y := readV s b.toNat
  let one := fun i => match laneType e with
    | .int _ w => (int w (lane x w i) (lane y w i), (0 : Flags))
    | .float f => f.compare cond (lane x w i) (lane y w i)
  let act := (List.range (laneCount e)).filter (isActive s k)
  let set := act.filter fun i => (one i).1
  let flags := act.foldl (fun f i => f ||| (one i).2) (0 : Flags)
  .ok (writeK (raiseFlags s flags) d.toNat (maskOf 64 set))

/-- VSEL (R187): k selects, and k = 0 takes va. -/
def laneSelect (d a b : BitVec 4) (k e : BitVec 3) (s : State) : Res :=
  let w := laneWidth e
  let x := readV s a.toNat
  let y := readV s b.toNat
  .ok (writeV s d.toNat (joinLanes w ((List.range (laneCount e)).map fun i => if isActive s k i then lane x w i else lane y w i)))

/-- A mask operation over all 64 bits (R188). -/
def maskOp (d a b : BitVec 3) (f : Word → Word → Word) (s : State) : Res :=
  .ok (writeK s d.toNat (f (readK s a.toNat) (readK s b.toNat)))

/-- A register named by a 4-bit field (R189). -/
def low (a : BitVec 4) : Reg := a.zeroExtend 5

/-- A lane in a general register: floats by R125, integers sign-extended (R189). -/
def placeLane (t : NumType) (x : Nat) : Word :=
  match t with
  | .int _ w => sext w x
  | .float _ => word x

/-! ## Conversions (R190 to R192) -/

/-- A field of the conversion word. -/
structure Conversion where
  row : Nat
  col : Nat
  fmt : Nat
  gen : Nat
  novf : Bool
  ndst : Bool
  nsrc : Bool
  rm : Nat

/-- e3 as a conversion word, when it carries the signature (R191). -/
def conversionOf (e3 : Word) : Option Conversion :=
  if field e3 56 8 = 0xC5 then
    some { row := field e3 32 24, col := field e3 20 12, fmt := field e3 15 5, gen := field e3 12 3, novf := bit e3 11, ndst := bit e3 10, nsrc := bit e3 9, rm := field e3 0 3 }
  else none

/-- A destination that a packed conversion admits: 0x03 to 0x08 and 0x0D to 0x11 (R192). -/
def packedTarget (fmt : Nat) : Bool := (decide (3 ≤ fmt) && decide (fmt ≤ 8)) || (decide (0xD ≤ fmt) && decide (fmt ≤ 0x11))

/-- e3 as VCVT reads it (R191); a Sedge processor has none (R421). [log 79: DESIGN CHOICE] -/
def conversionWord (s : State) : Word :=
  match s.own.turn with
  | .sedge _ => Config.sedgeE3 s.own.tick
  | _ => readE s 3

/-- A generator register as VCVT reads it (R191); a Sedge processor has none (R421). [log 79: DESIGN CHOICE] -/
def conversionGen (s : State) (n : Nat) : BitVec 256 :=
  match s.own.turn with
  | .sedge _ => Config.sedgeG s.own.tick n
  | _ => readG s n

/-- The reserved cases of a conversion word (R192). -/
def conversionReserved (s : State) (e3 : Word) (c : Conversion) (src dst : BitVec 3) : Bool :=
  decide (field e3 3 6 ≠ 0) || decide (c.rm = 6)
    || (decide (c.rm = 5) && !c.ndst && decide (dst ≠ 0))
    || (c.ndst && c.nsrc) || (c.ndst && decide (dst ≠ 0)) || (c.nsrc && decide (src ≠ 0))
    || (c.ndst && !packedTarget c.fmt)
    || (c.nsrc && !packedTarget c.fmt && decide (c.fmt ≠ 0x12) && decide (c.fmt ≠ 0x13))
    || (c.novf && decide (5 ≤ c.fmt) && decide (c.fmt ≤ 8))
    || (decide (c.rm = 5) && !genValid (conversionGen s c.gen))

/-- The mode of element e of a conversion (R114, R115, R191). -/
def conversionMode (s : State) (c : Conversion) (gen : Generator) (i : Nat) : Mode :=
  if c.rm = 5 then .sr (genHash gen (BitVec.ofNat 32 (c.col + i)) (BitVec.ofNat 32 c.row)).toNat
  else if c.rm = 7 then currentMode s
  else modeOf c.rm

/-- The exact value of a lane, no reserved data, and whether it signals. -/
def laneValue (t : NumType) (x : Nat) : Num × Bool × Bool := (t.decode x, false, t.isSignalling x)

/-- One converted element: reserved data and a signalling NaN raise NV (R116, R191). -/
def convertValue (t : NumType) (mode : Mode) (novf : Bool) (v : Num × Bool × Bool) : Result :=
  let r := t.round mode novf v.1
  { bits := r.bits, flags := r.flags ||| flagIf (v.2.1 || v.2.2) flagNV }

/-- VCVT (R190, R191): `n` elements of destination width `w`; every bit above them is zero. -/
def packResults (s : State) (d : BitVec 4) (k : BitVec 3) (w n : Nat) (f : Nat → Result) : Res :=
  let old := readV s d.toNat
  let rs := (List.range n).map fun i => if isActive s k i then f i else plain (lane old w i)
  .ok (writeV (raiseFlags s (allFlags rs)) d.toNat (joinLanes w (rs.map (·.bits))))

/-- VCVT under a conversion word (R191). -/
def packedConvert (s : State) (c : Conversion) (gen : Generator) (d a : BitVec 4) (src k dst : BitVec 3) : Res :=
  let x := readV s a.toNat
  let st := laneType src
  let mode := conversionMode s c gen
  if c.ndst then
    match codeType c.fmt with
    | some t => packResults s d k t.width (laneCount src) fun i => convertValue t (mode i) c.novf (laneValue st (lane x st.width i))
    | none => .rsvd s
  else
    let n := if c.nsrc then laneCount dst else min (laneCount src) (laneCount dst)
    packResults s d k (laneWidth dst) n fun i =>
      convertValue (laneType dst) (mode i) c.novf (if c.nsrc then streamElement c.fmt x.toNat i else laneValue st (lane x st.width i))

/-- VCVT (R190 to R192). -/
def convertLanes (d a : BitVec 4) (src k dst : BitVec 3) (s : State) : Res :=
  let e3 := conversionWord s
  match conversionOf e3 with
  | none =>
    let x := readV s a.toNat
    let st := laneType src
    packResults s d k (laneWidth dst) (min (laneCount src) (laneCount dst)) fun i =>
      convertValue (laneType dst) (currentMode s) false (laneValue st (lane x st.width i))
  | some c =>
    if conversionReserved s e3 c src dst then .rsvd s
    else if c.rm = 5 then withGen s (conversionGen s c.gen) [] fun gen => packedConvert s c gen d a src k dst
    else packedConvert s c { word := 0, seed := 0 } d a src k dst

/-! ## Reductions (R122, R123, R193) -/

/-- One node: a padding child passes the other through, unchanged and without flags, also where the only active
lane holds a NaN that R108 would make canonical (R122). [log 80: DESIGN CHOICE] -/
def joinNode (op : Nat → Nat → Result) (a b : Option Nat) : Option Nat × Flags :=
  match a, b with
  | none, y => (y, 0)
  | x, none => (x, 0)
  | some x, some y => let r := op x y; (some r.bits, r.flags)

/-- One level of the tree: neighbours in pairs, the lower lane left. -/
def joinLevel (op : Nat → Nat → Result) : List (Option Nat) → List (Option Nat) × Flags
  | a :: b :: t =>
    let r := joinNode op a b
    let rest := joinLevel op t
    (r.1 :: rest.1, r.2 ||| rest.2)
  | l => (l, 0)

/-- The tree of R122 over 2^depth leaves. -/
def reduceTree (op : Nat → Nat → Result) : Nat → List (Option Nat) → Option Nat × Flags
  | 0, l => (l.headD none, 0)
  | n + 1, l =>
    let r := joinLevel op l
    let q := reduceTree op n r.1
    (q.1, r.2 ||| q.2)

/-- VREDADD, VREDMIN, VREDMAX (R193): lane 0 takes the result and every other lane zero. -/
def reduceLanes (d a : BitVec 4) (k e : BitVec 3) (op : NumType → Mode → Nat → Nat → Nat → Result) (empty : NumType → Nat) (s : State) : Res :=
  let t := laneType e
  let x := readV s a.toNat
  let leaves := (List.range (laneCount e)).map fun i => if isActive s k i then some (lane x t.width i) else none
  let r := reduceTree (fun p q => op t (currentMode s) p q 0) (Nat.log2 (laneCount e)) leaves
  .ok (writeV (raiseFlags s r.2) d.toNat (BitVec.ofNat 512 (r.1.getD (empty t))))

/-- The empty results of R123. -/
def emptySum (_t : NumType) : Nat := 0
/-- The empty minimum. -/
def emptyMin (t : NumType) : Nat :=
  match t with
  | .int _ w => 2 ^ (w - 1) - 1
  | .float f => f.infCode
/-- The empty maximum. -/
def emptyMax (t : NumType) : Nat :=
  match t with
  | .int _ w => 2 ^ (w - 1)
  | .float f => f.signed true f.infCode

/-- Lane sums, minima and maxima (R185, R132). -/
def laneAdd : NumType → Mode → Nat → Nat → Nat → Result := byClass (fun w a b => wrapLane w (a + b)) Format.add
/-- VMIN. -/
def laneMin : NumType → Mode → Nat → Nat → Nat → Result := byClass (fun w a b => wrapLane w (if b < a then b else a)) fun f _ a b => f.min a b
/-- VMAX. -/
def laneMax : NumType → Mode → Nat → Nat → Nat → Result := byClass (fun w a b => wrapLane w (if a < b then b else a)) fun f _ a b => f.max a b

/-! ## Generated lanes (R194) -/

/-- A generated value in a lane; the sine of a pair stands in an odd lane. -/
def drawnLane (t : NumType) (m : Mode) (kind : Nat) (odd : Bool) (v : Drawn) : Result :=
  match v with
  | .int x =>
    match t with
    | .int _ w => plain (wrapLane w x)
    | .float f => f.round m false (if kind = 0x15 then .fin (decide (x < 0)) x.natAbs (-7) else intNum x)
  | .pair c n => t.round m false (bf16.decode (if odd then n else c))

/-- VGEN (R194): RSVD for NNORM into i8 and for ROTPH into an integer type. -/
def generateLanes (d : BitVec 4) (g : BitVec 3) (b : BitVec 4) (k e : BitVec 3) (s : State) : Res :=
  let w := readG s g.toNat
  let x := readX s (low b)
  let kind := genKind w
  let pos := fun i => (field32 x 0 + BitVec.ofNat 32 (if kind = 0x16 then i / 2 else i), field32 x 32)
  let act := (List.range (laneCount e)).filter (isActive s k)
  if (decide (kind = 0x15) && decide (e = 0)) || (decide (kind = 0x16) && decide (e.toNat < 4)) then .rsvd s
  else withGen s w (act.map pos) fun gen =>
    eachLane d k e (fun i _ =>
      let p := pos i
      drawnLane (laneType e) (currentMode s) kind (decide (i % 2 = 1)) (drawNow s gen p.1 p.2)) s

/-! ## Vector memory accesses (R195 to R197) -/

/-- The address of lane i: contiguous, strided, or indexed (R195). -/
def contiguous (a : BitVec 4) (e : BitVec 3) (s : State) (i : Nat) : Word := readX s (low a) + word (i * (laneWidth e / 8))
/-- VLDS and VSTS. -/
def strided (a b : BitVec 4) (s : State) (i : Nat) : Word := readX s (low a) + word i * readX s (low b)
/-- VGATH and VSCAT: signed byte offsets of the element width. -/
def indexed (a b : BitVec 4) (e : BitVec 3) (s : State) (i : Nat) : Word :=
  readX s (low a) + sext (laneWidth e) (lane (readV s b.toNat) (laneWidth e) i)

/-- A vector memory trap: VFLANE takes the lane, and the instruction has no effect (R196). -/
def laneTrap {α : Type} (s : State) (i : Nat) (x : Acc α) : Acc α :=
  match x with
  | .trap t c v =>
    match s.own.turn with
    | .core => .trap { t with cpu := { t.cpu with vflane := word i } } c v
    | _ => .trap s c v
  | y => y

/-- Load the active lanes in order. -/
def loadLanes (addr : Nat → Word) (n : Nat) : List Nat → State → Acc (List (Nat × Nat))
  | [], s => .ok s []
  | i :: is, s =>
    (laneTrap s i (load s (addr i) n)).bind fun s bs => (loadLanes addr n is s).map fun l => (i, ofBytes bs) :: l

/-- VLD, VLDS and VGATH (R195). -/
def vectorLoad (d : BitVec 4) (k e : BitVec 3) (addr : State → Nat → Word) (s : State) : Res :=
  let act := (List.range (laneCount e)).filter (isActive s k)
  (loadLanes (addr s) (laneWidth e / 8) act s).run fun s vs =>
    eachLane d k e (fun i old => plain (((vs.find? fun p => decide (p.1 = i)).map (·.2)).getD old)) s

/-- The pieces of the active elements, each checked and granted in lane order (R196, R232): an element that
waits for the home slice of another device does not hold back the requests of those after it, while a cause of a later
element is reported once the earlier answers have come, which may refuse an earlier one. -/
def obtainLanes (addr : Nat → Word) (bytes : Nat → List Byte) : List Nat → State → Acc (List (List Piece × List Byte))
  | [], s => .ok s []
  | i :: is, s =>
    match laneTrap s i ((resolve s .store (isUser s) (addr i).toNat (bytes i).length).bind fun s ps =>
      (obtainAll s false ps).map fun _ => ps) with
    | .ok s ps => (obtainLanes addr bytes is s).map fun l => (ps, bytes i) :: l
    | .trap t c v => .trap t c v
    | .stall t =>
      if s.mem.requested.length < t.mem.requested.length then
        match obtainLanes addr bytes is t with
        | .ok s _ => .stall s
        | .stall s => .stall s
        | .trap _ _ _ => .stall t
      else .stall t

/-- Stores of a switch kernel, element by element (R422). -/
def kernelLanes (addr : Nat → Word) (bytes : Nat → List Byte) : List Nat → State → Acc Unit
  | [], s => .ok s ()
  | i :: is, s => (store s (addr i) (bytes i)).bind fun s _ => kernelLanes addr bytes is s

/-- VST, VSTS and VSCAT (R195, R197): every element is checked first, then the elements are written in
lane order, in the one step: of the subsets of them that another agent may observe, it sees none and all. [log 83: DESIGN CHOICE] -/
def vectorStore (r : BitVec 4) (k e : BitVec 3) (addr : State → Nat → Word) (s : State) : Res :=
  let act := (List.range (laneCount e)).filter (isActive s k)
  let x := readV s r.toNat
  let bytes := fun i => toBytes (laneWidth e / 8) (lane x (laneWidth e) i)
  match s.own.turn with
  | .core =>
    if isFenced s 0 then .stall (waitFenced s 0)
    else
      (obtainLanes (addr s) bytes act s).run fun s l =>
        (readyPieces (rekeyPieces s (l.flatMap (·.1))) (l.flatMap (·.1))).run fun s _ =>
          .ok (drainTo 16 64 (l.foldl (fun s p => writePieces (rekeyPieces s p.1) p.1 p.2) s))
  | _ =>
    match kernelLanes (addr s) bytes act s with
    | .ok s _ => .ok s
    | .trap _ c v => .trap s c v
    | .stall s => .stall s

/-! ## The instructions -/

/-- VADD (R185). -/
def execVadd (d a b : BitVec 4) (k e : BitVec 3) (s : State) : Host.Outcome State Fault Refusal :=
  runInstr (.vadd d a b k e) (laneOp d a b k e laneAdd) s

/-- VSUB (R185). -/
def execVsub (d a b : BitVec 4) (k e : BitVec 3) (s : State) : Host.Outcome State Fault Refusal :=
  runInstr (.vsub d a b k e) (laneOp d a b k e (byClass (fun w a b => wrapLane w (a - b)) Format.sub)) s

/-- VMUL (R185). -/
def execVmul (d a b : BitVec 4) (k e : BitVec 3) (s : State) : Host.Outcome State Fault Refusal :=
  runInstr (.vmul d a b k e) (laneOp d a b k e (byClass (fun w a b => wrapLane w (a * b)) Format.mul)) s

/-- VFMA (R129, R185). -/
def execVfma (d a b : BitVec 4) (k e : BitVec 3) (s : State) : Host.Outcome State Fault Refusal :=
  runInstr (.vfma d a b k e) (laneOp d a b k e laneFma) s

/-- VDIV (R185). -/
def execVdiv (d a b : BitVec 4) (k e : BitVec 3) (s : State) : Host.Outcome State Fault Refusal :=
  runInstr (.vdiv d a b k e) (laneOp d a b k e (byClass (fun w a _ => wrapLane w a) Format.div)) s

/-- VMIN (R185). -/
def execVmin (d a b : BitVec 4) (k e : BitVec 3) (s : State) : Host.Outcome State Fault Refusal :=
  runInstr (.vmin d a b k e) (laneOp d a b k e laneMin) s

/-- VMAX (R185). -/
def execVmax (d a b : BitVec 4) (k e : BitVec 3) (s : State) : Host.Outcome State Fault Refusal :=
  runInstr (.vmax d a b k e) (laneOp d a b k e laneMax) s

/-- VABS (R185). -/
def execVabs (d a : BitVec 4) (k e : BitVec 3) (s : State) : Host.Outcome State Fault Refusal :=
  runInstr (.vabs d a k e) (laneOp d a a k e laneAbs) s

/-- VAND (R185). -/
def execVand (d a b : BitVec 4) (k e : BitVec 3) (s : State) : Host.Outcome State Fault Refusal :=
  runInstr (.vand d a b k e) (laneOp d a b k e (onBits fun _ a b => a &&& b)) s

/-- VOR (R185). -/
def execVor (d a b : BitVec 4) (k e : BitVec 3) (s : State) : Host.Outcome State Fault Refusal :=
  runInstr (.vor d a b k e) (laneOp d a b k e (onBits fun _ a b => a ||| b)) s

/-- VXOR (R185). -/
def execVxor (d a b : BitVec 4) (k e : BitVec 3) (s : State) : Host.Outcome State Fault Refusal :=
  runInstr (.vxor d a b k e) (laneOp d a b k e (onBits fun _ a b => a ^^^ b)) s

/-- VSHL (R185). -/
def execVshl (d a b : BitVec 4) (k e : BitVec 3) (s : State) : Host.Outcome State Fault Refusal :=
  runInstr (.vshl d a b k e) (laneOp d a b k e (onBits fun w a b => a * 2 ^ laneShift w b % 2 ^ w)) s

/-- VSHR (R185). -/
def execVshr (d a b : BitVec 4) (k e : BitVec 3) (s : State) : Host.Outcome State Fault Refusal :=
  runInstr (.vshr d a b k e) (laneOp d a b k e (onBits fun w a b => a / 2 ^ laneShift w b)) s

/-- VSRA (R185). -/
def execVsra (d a b : BitVec 4) (k e : BitVec 3) (s : State) : Host.Outcome State Fault Refusal :=
  runInstr (.vsra d a b k e) (laneOp d a b k e (onBits fun w a b => wrapLane w (signedLane w a / 2 ^ laneShift w b))) s

/-- VADDS (R185). -/
def execVadds (d a b : BitVec 4) (k e : BitVec 3) (s : State) : Host.Outcome State Fault Refusal :=
  runInstr (.vadds d a b k e) (laneOp d a b k e (byClass (fun w a b => saturate w (a + b)) Format.add)) s

/-- VSUBS (R185). -/
def execVsubs (d a b : BitVec 4) (k e : BitVec 3) (s : State) : Host.Outcome State Fault Refusal :=
  runInstr (.vsubs d a b k e) (laneOp d a b k e (byClass (fun w a b => saturate w (a - b)) Format.sub)) s

/-- VCMPEQ (R186). -/
def execVcmpeq (d : BitVec 3) (a b : BitVec 4) (k e : BitVec 3) (s : State) : Host.Outcome State Fault Refusal :=
  runInstr (.vcmpeq d a b k e) (laneCompare d a b k e (fun _ a b => decide (a = b)) 0) s

/-- VCMPLT (R186). -/
def execVcmplt (d : BitVec 3) (a b : BitVec 4) (k e : BitVec 3) (s : State) : Host.Outcome State Fault Refusal :=
  runInstr (.vcmplt d a b k e) (laneCompare d a b k e (fun w a b => decide (signedLane w a < signedLane w b)) 1) s

/-- VCMPLE (R186). -/
def execVcmple (d : BitVec 3) (a b : BitVec 4) (k e : BitVec 3) (s : State) : Host.Outcome State Fault Refusal :=
  runInstr (.vcmple d a b k e) (laneCompare d a b k e (fun w a b => decide (signedLane w a ≤ signedLane w b)) 2) s

/-- VCMPLTU (R186). -/
def execVcmpltu (d : BitVec 3) (a b : BitVec 4) (k e : BitVec 3) (s : State) : Host.Outcome State Fault Refusal :=
  runInstr (.vcmpltu d a b k e) (laneCompare d a b k e (fun _ a b => decide (a < b)) 1) s

/-- VSEL (R187). -/
def execVsel (d a b : BitVec 4) (k e : BitVec 3) (s : State) : Host.Outcome State Fault Refusal :=
  runInstr (.vsel d a b k e) (laneSelect d a b k e) s

/-- VCVT (R190 to R192). -/
def execVcvt (d a : BitVec 4) (src k e : BitVec 3) (s : State) : Host.Outcome State Fault Refusal :=
  runInstr (.vcvt d a src k e) (convertLanes d a src k e) s

/-- VPERM (R189). -/
def execVperm (d a b : BitVec 4) (k e : BitVec 3) (s : State) : Host.Outcome State Fault Refusal :=
  runInstr (.vperm d a b k e) (fun s => laneOp d a b k e (fun t _ _ j _ => plain (lane (readV s a.toNat) t.width (j % laneCount e))) s) s

/-- VBCAST (R189). -/
def execVbcast (d a : BitVec 4) (k e : BitVec 3) (s : State) : Host.Outcome State Fault Refusal :=
  runInstr (.vbcast d a k e) (fun s => eachLane d k e (fun _ _ => plain (field (readX s (low a)) 0 (laneWidth e))) s) s

/-- VIDX (R189). -/
def execVidx (d : BitVec 4) (k e : BitVec 3) (s : State) : Host.Outcome State Fault Refusal :=
  runInstr (.vidx d k e) (eachLane d k e fun i _ => plain i) s

/-- VMOVX (R189). -/
def execVmovx (d a b : BitVec 4) (e : BitVec 3) (s : State) : Host.Outcome State Fault Refusal :=
  runInstr (.vmovx d a b e) (fun s => .ok (writeX s (low d) (placeLane (laneType e) (lane (readV s a.toNat) (laneWidth e) ((readX s (low b)).toNat % laneCount e))))) s

/-- VREDADD (R193). -/
def execVredadd (d a : BitVec 4) (k e : BitVec 3) (s : State) : Host.Outcome State Fault Refusal :=
  runInstr (.vredadd d a k e) (reduceLanes d a k e laneAdd emptySum) s

/-- VREDMIN (R193). -/
def execVredmin (d a : BitVec 4) (k e : BitVec 3) (s : State) : Host.Outcome State Fault Refusal :=
  runInstr (.vredmin d a k e) (reduceLanes d a k e laneMin emptyMin) s

/-- VREDMAX (R193). -/
def execVredmax (d a : BitVec 4) (k e : BitVec 3) (s : State) : Host.Outcome State Fault Refusal :=
  runInstr (.vredmax d a k e) (reduceLanes d a k e laneMax emptyMax) s

/-- VMAND (R188). -/
def execVmand (d a b : BitVec 3) (s : State) : Host.Outcome State Fault Refusal :=
  runInstr (.vmand d a b) (maskOp d a b (· &&& ·)) s

/-- VMOR (R188). -/
def execVmor (d a b : BitVec 3) (s : State) : Host.Outcome State Fault Refusal :=
  runInstr (.vmor d a b) (maskOp d a b (· ||| ·)) s

/-- VMXOR (R188). -/
def execVmxor (d a b : BitVec 3) (s : State) : Host.Outcome State Fault Refusal :=
  runInstr (.vmxor d a b) (maskOp d a b (· ^^^ ·)) s

/-- VMPOPC (R188). -/
def execVmpopc (d : BitVec 4) (a : BitVec 3) (s : State) : Host.Outcome State Fault Refusal :=
  runInstr (.vmpopc d a) (fun s => .ok (writeX s (low d) (word (popCount (readK s a.toNat).toNat 64)))) s

/-- VGEN (R194). -/
def execVgen (d : BitVec 4) (g : BitVec 3) (b : BitVec 4) (k e : BitVec 3) (s : State) : Host.Outcome State Fault Refusal :=
  runInstr (.vgen d g b k e) (generateLanes d g b k e) s

/-- VLD (R195). -/
def execVld (d a : BitVec 4) (k e : BitVec 3) (s : State) : Host.Outcome State Fault Refusal :=
  runInstr (.vld d a k e) (vectorLoad d k e (contiguous a e)) s

/-- VST (R195). -/
def execVst (r a : BitVec 4) (k e : BitVec 3) (s : State) : Host.Outcome State Fault Refusal :=
  runInstr (.vst r a k e) (vectorStore r k e (contiguous a e)) s

/-- VLDS (R195). -/
def execVlds (d a b : BitVec 4) (k e : BitVec 3) (s : State) : Host.Outcome State Fault Refusal :=
  runInstr (.vlds d a b k e) (vectorLoad d k e (strided a b)) s

/-- VSTS (R195). -/
def execVsts (r a b : BitVec 4) (k e : BitVec 3) (s : State) : Host.Outcome State Fault Refusal :=
  runInstr (.vsts r a b k e) (vectorStore r k e (strided a b)) s

/-- VGATH (R195). -/
def execVgath (d a b : BitVec 4) (k e : BitVec 3) (s : State) : Host.Outcome State Fault Refusal :=
  runInstr (.vgath d a b k e) (vectorLoad d k e (indexed a b e)) s

/-- VSCAT (R195). -/
def execVscat (r a b : BitVec 4) (k e : BitVec 3) (s : State) : Host.Outcome State Fault Refusal :=
  runInstr (.vscat r a b k e) (vectorStore r k e (indexed a b e)) s

end Sys2Proof.Machine
end

