-- ==== Sys2Proof/Machine/Levee.lean ====
section
/-! DEFINITION. Grid objects and the Levee engine: the descriptor, the ghost frame and its sources,
exchanges, slabs, and the grid instructions (R305 to R314, R320, R335 to R339). -/

namespace Sys2Proof.Machine

/-! ## The descriptor (R305 to R307) -/

/-- The fields of a descriptor. -/
structure Geo where
  et : BitVec 3
  dim3 : Bool
  rad : Nat
  dep : Nat
  c3 : Bool
  rules : List Nat
  base0 : Nat
  base1 : Nat
  step : Nat
  nx : Nat
  ny : Nat
  nz : Nat
  rect : Word
  dw : Nat
  dh : Nat
  gx : Nat
  gy : Nat
  gz : Nat
  fix : List Word

/-- Read the fields of a descriptor's 16 doublewords. -/
def geoOf (w : List Word) : Geo :=
  let at_ := fun i => w.getD i 0
  { et := BitVec.ofNat 3 (field (at_ 0) 53 3), dim3 := bit (at_ 0) 52, rad := field (at_ 0) 48 4, dep := field (at_ 0) 44 4, c3 := bit (at_ 0) 43,
    rules := (List.range 6).map fun f => field (at_ 0) (24 + 3 * f) 3, base0 := field (at_ 0) 0 20, base1 := field (at_ 1) 0 20,
    step := field (at_ 1) 32 32, nx := field (at_ 2) 0 16, ny := field (at_ 2) 16 16, nz := field (at_ 2) 32 16, rect := at_ 3,
    dw := field (at_ 4) 0 8, dh := field (at_ 4) 8 8, gx := field (at_ 5) 0 21, gy := field (at_ 5) 21 21, gz := field (at_ 5) 42 21,
    fix := (List.range 6).map fun f => at_ (8 + f) }

/-- The element size E in bytes. -/
def Geo.size (g : Geo) : Nat := laneWidth g.et / 8
/-- The ghost width w := r × d. -/
def Geo.w (g : Geo) : Nat := g.rad * g.dep
/-- The ghost width in z. -/
def Geo.wz (g : Geo) : Nat := if g.dim3 then g.w else 0
/-- Cores across and down on one device. -/
def Geo.cx (g : Geo) : Nat := field g.rect 10 5 + 1 - field g.rect 0 5
/-- Cores down. -/
def Geo.cy (g : Geo) : Nat := field g.rect 15 5 + 1 - field g.rect 5 5
/-- The bytes of a padded buffer (R307). -/
def Geo.bufferBytes (g : Geo) : Nat := g.size * (g.nx + 2 * g.w) * (g.ny + 2 * g.w) * (if g.dim3 then g.nz + 2 * g.w else 1)
/-- The boundary rule of a face: 0 PERIODIC, 1 FIXED, 2 MIRROR, 3 ZEROGRAD, 4 OPEN. -/
def Geo.rule (g : Geo) (f : Nat) : Nat := g.rules.getD f 4

/-- The local address of cell (x, y, z) of buffer b (R307). -/
def Geo.addr (g : Geo) (b : Nat) (x y z : Int) : Nat :=
  let px : Int := g.nx + 2 * g.w
  let py : Int := g.ny + 2 * g.w
  (if b % 2 = 0 then g.base0 else g.base1) + g.size * ((z + g.wz) * py * px + (y + g.w) * px + (x + g.w)).toNat

/-- A nonzero reserved field or a rule code of 5 to 7 (R305, R320). -/
def geoReserved (w : List Word) : Bool :=
  let at_ := fun i => w.getD i 0
  let g := geoOf w
  bit (at_ 0) 42 || decide (field (at_ 0) 20 4 ≠ 0) || decide (field (at_ 1) 20 12 ≠ 0) || decide (field (at_ 2) 48 16 ≠ 0)
    || decide (field (at_ 3) 33 31 ≠ 0) || decide (field (at_ 3) 20 4 ≠ 0) || decide (field (at_ 4) 16 48 ≠ 0) || bit (at_ 5) 63
    || [6, 7, 14, 15].any (fun i => decide (at_ i ≠ 0)) || g.rules.any (fun r => decide (4 < r))
    || g.fix.any fun x => decide (x.toNat / 2 ^ (8 * g.size) ≠ 0)

/-- The device of the core lies in the device rectangle of the grid (R307). -/
def deviceInside (s : State) (g : Geo) : Bool :=
  let c := field g.rect 24 8 % 16
  let r := field g.rect 24 8 / 16
  decide (c ≤ ownDev s % 16) && decide (ownDev s % 16 < c + g.dw) && decide (r ≤ ownDev s / 16) && decide (ownDev s / 16 < r + g.dh)

/-- The regions of R202 that a buffer must not overlap. -/
def placedRegions (s : State) : List Span :=
  [(0, 0x800), scratchSpan s.cpu.scrcfg, counterSpan s.cpu.dcbase, delaySpan s.cpu.dacbase, stashRegion s.cpu.stashcfg]

/-- A buffer is misplaced (R306, R320 reason 7). -/
def bufferBad (s : State) (g : Geo) (b other : Nat) : Bool :=
  let sp : Span := (b, b + g.bufferBytes)
  decide (b % g.size ≠ 0) || decide (0x100000 < b + g.bufferBytes) || sp.meets (other, other + g.bufferBytes) || (placedRegions s).any sp.meets

/-- PERIODIC on exactly one face of an axis. -/
def periodicBad (g : Geo) : Bool :=
  (List.range (if g.dim3 then 3 else 2)).any fun x => decide ((g.rule (2 * x) = 0) ≠ (g.rule (2 * x + 1) = 0))

/-- The first of R320's reasons 3 to 8 that a descriptor meets, with its operand. -/
def geoReason (s : State) (w : List Word) : Option (Nat × Word) :=
  let at_ := fun i => w.getD i 0
  let g := geoOf w
  let r := g.rect
  let dev := field r 24 8
  let own := withField r 24 8 (ownDev s)
  if field (at_ 0) 56 8 ≠ 0x6D || decide (g.rad = 0) || decide (g.dep = 0) || decide (8 < g.w) then some (3, at_ 0)
  else if bit r 32 || !rectWellFormed r || decide (g.dw = 0) || decide (g.dh = 0) || decide (16 < dev % 16 + g.dw) || decide (16 < dev / 16 + g.dh)
      || !inRect own s.cpu.coreId || !deviceInside s g then some (4, at_ 3)
  else if g.step % g.dep ≠ 0 then some (5, at_ 1)
  else if g.nx < g.w || decide (g.ny < g.w) || (if g.dim3 then decide (g.nz < g.w) else decide (g.nz ≠ 1))
      || decide (g.gx ≠ g.nx * g.cx * g.dw) || decide (g.gy ≠ g.ny * g.cy * g.dh) || decide (g.gz ≠ g.nz) then some (6, at_ 2)
  else if bufferBad s g g.base0 g.base1 then some (7, word g.base0)
  else if bufferBad s g g.base1 g.base0 then some (7, word g.base1)
  else if periodicBad g then some (8, at_ 0)
  else none

/-! ## Neighbours (R307, R308) -/

/-- The core's place in the grid's arrangement of cores. -/
def gridPlace (s : State) (g : Geo) : Int × Int :=
  let dev := field g.rect 24 8
  ((((ownDev s % 16 - dev % 16) * g.cx + (packageX s.cpu.coreId - field g.rect 0 5) : Nat) : Int),
   (((ownDev s / 16 - dev / 16) * g.cy + (packageY s.cpu.coreId - field g.rect 5 5) : Nat) : Int))

/-- The core at a place of the arrangement. -/
def coreAt (g : Geo) (p : Int × Int) : BitVec 18 :=
  let dev := field g.rect 24 8
  let x := p.1.toNat
  let y := p.2.toNat
  let d := (dev % 16 + x / g.cx) + 16 * (dev / 16 + y / g.cy)
  let px := field g.rect 0 5 + x % g.cx
  let py := field g.rect 5 5 + y % g.cy
  BitVec.ofNat 18 (d * 1024 + (2 * (py / 10) + px / 16) * 256 + py % 10 * 16 + px % 16)

/-- One step along an axis from a place: the coordinate of the core there, wrapped under PERIODIC. -/
def stepAxis (total : Nat) (rule : Nat) (c : Int) (up : Bool) : Option Int :=
  let n := if up then c + 1 else c - 1
  if decide (0 ≤ n) && decide (n < total) then some n
  else if rule = 0 then some (n % (total : Int)) else none

/-- The place across a side of X, or of Y. -/
def acrossX (g : Geo) (p : Int × Int) (up : Bool) : Option (Int × Int) :=
  (stepAxis (g.cx * g.dw) (g.rule (if up then 1 else 0)) p.1 up).map fun n => (n, p.2)
/-- Across a side of Y. -/
def acrossY (g : Geo) (p : Int × Int) (up : Bool) : Option (Int × Int) :=
  (stepAxis (g.cy * g.dh) (g.rule (if up then 3 else 2)) p.2 up).map fun n => (p.1, n)

/-- Which side of an extent a coordinate lies on: below, inside or above. -/
inductive Side where
  | low
  | inside
  | high
  deriving DecidableEq, Repr

/-- The side of a coordinate. -/
def sideOf (c : Int) (n : Nat) : Side := if c < 0 then .low else if c < (n : Int) then .inside else .high

/-- A coordinate beyond a face under the local rules (R308): the own coordinate, or the FIX value of the
face, or nothing. -/
inductive Mapped where
  | cell (c : Int)
  | fix (f : Nat)
  | open_

/-- Map a coordinate beyond a face within the own core. -/
def mapLocal (rule f : Nat) (n : Nat) (c : Int) : Mapped :=
  match rule with
  | 0 => .cell (if c < 0 then c + n else c - n)
  | 1 => .fix f
  | 2 => .cell (if c < 0 then -c - 1 else 2 * (n : Int) - 1 - c)
  | 3 => .cell (if c < 0 then 0 else (n : Int) - 1)
  | _ => .open_

/-- Where the value of a ghost cell comes from (R308): an own cell, a FIX value, nowhere, or another core,
by the place of that core. -/
inductive Source where
  | own (x y z : Int)
  | fix (f : Nat)
  | open_
  | other (p : Int × Int)

/-- The z coordinate is mapped within the core last. -/
def sourceZ (g : Geo) (x y z : Int) : Source :=
  match sideOf z g.nz with
  | .inside => .own x y z
  | sd =>
    let f := if sd = .high then 5 else 4
    match mapLocal (g.rule f) f g.nz z with
    | .cell c => .own x y c
    | .fix f => .fix f
    | .open_ => .open_

/-- Map y, then z, of a column that lies in the own core. -/
def sourceY (g : Geo) (p : Int × Int) (x y z : Int) : Source :=
  match sideOf y g.ny with
  | .inside => sourceZ g x y z
  | sd =>
    let up := decide (sd = .high)
    let f := if up then 3 else 2
    match acrossY g p up with
    | some q => if q = p then sourceZ g x (if up then y - g.ny else y + g.ny) z else .other q
    | none =>
      match mapLocal (g.rule f) f g.ny y with
      | .cell c => sourceZ g x c z
      | .fix f => .fix f
      | .open_ => .open_

/-- The source of a cell of the core at place `p` (R308): x, then y, then z. A coordinate mapped into a
neighbour goes on under the rules of that neighbour, which sends what they give, nothing under OPEN. Which core beyond
sends a corner block is told by the own descriptor; the block itself is taken from whoever sends it. [log 29: DESIGN CHOICE] -/
def sourceOf (g : Geo) (p : Int × Int) (x y z : Int) : Source :=
  match sideOf x g.nx with
  | .inside => sourceY g p x y z
  | sd =>
    let up := decide (sd = .high)
    let f := if up then 1 else 0
    match acrossX g p up with
    | some q =>
      if q = p then sourceY g p (if up then x - g.nx else x + g.nx) y z
      else
        match sideOf y g.ny with
        | .inside => .other q
        | sy =>
          match acrossY g q (decide (sy = .high)) with
          | some r => .other r
          | none => .other q
    | none =>
      match mapLocal (g.rule f) f g.nx x with
      | .cell c => sourceY g p c y z
      | .fix f => .fix f
      | .open_ => .open_

/-! ## Pieces of slabs (R308, R310, R311) -/

/-- Coordinates of a run. -/
def coords (lo : Int) (n : Nat) : List Int := (List.range n).map fun (i : Nat) => lo + (i : Int)

/-- The cells of a piece of a face in the receiver's coordinates, x fastest, z slowest: an X slab is one
piece; a Y slab has its middle (0) and the corner blocks beyond X− (1) and X+ (2). [log 29: DESIGN CHOICE] -/
def pieceCells (g : Geo) (face piece : Nat) : List (Int × Int × Int) :=
  let xs := if face = 0 then coords (-g.w) g.w else if face = 1 then coords g.nx g.w
    else if piece = 0 then coords 0 g.nx else if piece = 1 then coords (-g.w) g.w else coords g.nx g.w
  let ys := if face ≤ 1 then coords 0 g.ny else if face = 2 then coords (-g.w) g.w else coords g.ny g.w
  (coords 0 g.nz).flatMap fun z => ys.flatMap fun y => xs.map fun x => (x, y, z)

/-- The pieces that a face may have. -/
def facePieces (face : Nat) : List Nat := if face ≤ 1 then [0] else [0, 1, 2]

/-- The core that a piece comes from, when it is another one: across the face, or for a corner block the core reached by
x, then by y (R308). A corner block whose x maps within the core is no piece: it follows from the middle of the slab. -/
def pieceSource (g : Geo) (p : Int × Int) (face piece : Nat) : Option (Int × Int) :=
  if piece = 0 then (if face ≤ 1 then acrossX g p (decide (face = 1)) else acrossY g p (decide (face = 3))).filter fun q => decide (q ≠ p)
  else ((acrossX g p (decide (piece = 2))).filter fun q => decide (q ≠ p)).map fun q => (acrossY g q (decide (face = 3))).getD q

/-- The pieces of other cores that make up a face. -/
def expectedPieces (g : Geo) (p : Int × Int) (face : Nat) : List (Nat × (Int × Int)) :=
  (facePieces face).filterMap fun k => (pieceSource g p face k).map fun q => (k, q)

/-- The bytes of one element as a number. -/
def cellValue (s : State) (g : Geo) (b : Nat) (x y z : Int) : Nat := ofBytes (getLocals s (ownKey s (g.addr b x y z)) g.size)

/-- Write one element. -/
def putCell (g : Geo) (b : Nat) (s : State) (c : Int × Int × Int) (v : Nat) : State :=
  putLocal s (ownKey s (g.addr b c.1 c.2.1 c.2.2)) (toBytes g.size v)

/-- The value of a cell that is filled within the core, none for OPEN and for another core's cell. -/
def ownValue (s : State) (g : Geo) (p : Int × Int) (b : Nat) (c : Int × Int × Int) : Option Nat :=
  match sourceOf g p c.1 c.2.1 c.2.2 with
  | .own x y z => some (cellValue s g b x y z)
  | .fix f => some (g.fix.getD f 0).toNat
  | _ => none

/-- All ghost cells. -/
def ghostCells (g : Geo) : List (Int × Int × Int) :=
  ((coords (-g.wz) (g.nz + 2 * g.wz)).flatMap fun z => (coords (-g.w) (g.ny + 2 * g.w)).flatMap fun y =>
    (coords (-g.w) (g.nx + 2 * g.w)).map fun x => (x, y, z)).filter fun c =>
      !(decide (sideOf c.1 g.nx = .inside) && decide (sideOf c.2.1 g.ny = .inside) && decide (sideOf c.2.2 g.nz = .inside))

/-- The cells that the core fills from its own buffer and its rules (R309 step 3). -/
def fillOwn (s : State) (g : Geo) (p : Int × Int) (b : Nat) : State :=
  let vs := (ghostCells g).filterMap fun c => (ownValue s g p b c).map fun v => (c, v)
  vs.foldl (fun s x => putCell g b s x.1 x.2) s

/-- Ghost cells of Z above and below columns, from the own planes (R308); in a block that a rule FIXED gave, where no
coordinate maps any further, the column's value. -/
def fillColumns (s : State) (g : Geo) (b : Nat) (fixed : Bool) (cols : List (Int × Int)) : State :=
  if !g.dim3 then s
  else
    let cells := cols.flatMap fun c => (coords (-g.w) g.w ++ coords g.nz g.w).map fun z => (c.1, c.2, z)
    cells.foldl (fun s c =>
      match if fixed then Source.own c.1 c.2.1 0 else sourceZ g c.1 c.2.1 c.2.2 with
      | .own x y z => putCell g b s c (cellValue s g b x y z)
      | .fix f => putCell g b s c (g.fix.getD f 0).toNat
      | _ => s) s

/-- Cells of a Y slab's corner blocks whose x maps within the core, with the x that they take from the landed
middle (R308). -/
def cornerCells (g : Geo) (p : Int × Int) (face : Nat) : List ((Int × Int × Int) × Int) :=
  if face ≤ 1 then []
  else
    (pieceCells g face 1 ++ pieceCells g face 2).filterMap fun c =>
      let up := decide (sideOf c.1 g.nx = .high)
      let f := if up then 1 else 0
      let derive := fun (x : Int) => (match sourceOf g p c.1 c.2.1 c.2.2 with
        | .other _ => some (c, x)
        | _ => none)
      match acrossX g p up with
      | some q => if q = p then derive (if up then c.1 - g.nx else c.1 + g.nx) else none
      | none => (match mapLocal (g.rule f) f g.nx c.1 with
        | .cell x => derive x
        | _ => none)

/-- The columns of cells. -/
def columnsOf (cells : List (Int × Int × Int)) : List (Int × Int) := (cells.filter fun c => decide (c.2.2 = 0)).map fun c => (c.1, c.2.1)

/-! ## Slots, landing and completion (R309 to R312) -/

/-- Slot n. -/
def gridOf (s : State) (n : Nat) : Grid := s.eng.grids.get n
/-- Replace slot n. -/
def setGrid (s : State) (n : Nat) (g : Grid) : State := { s with eng := { s.eng with grids := s.eng.grids.set n g } }

/-- s ≥ b − 1, modulo 2^32 (R311). -/
def mayLand (g : Grid) (b : BitVec 32) : Bool := decide (0 ≤ (g.s - b + 1).toInt)

/-- The base is recorded as landed for a face: it becomes the newest of the two (R311). -/
def recordBase (f : Face) (b : BitVec 32) : Face := { f with newest := some b, older := f.newest }

/-- The bytes that a piece should have. -/
def slabSize (g : Geo) (face piece : Nat) : Nat := (pieceCells g face piece).length * g.size

/-- A piece has the size of the descriptor, or is a corner block that an OPEN face of its sender leaves unwritten
(R308, R311). -/
def sizeMatches (g : Geo) (p : Slab) : Bool :=
  decide (p.bytes.length = slabSize g p.face.toNat p.piece.toNat) || (decide (p.piece ≠ 0) && p.bytes.isEmpty)

/-- Write the bytes of a piece. -/
def writeSlab (s : State) (g : Geo) (p : Slab) : State :=
  if p.bytes.isEmpty then s
  else
    ((pieceCells g p.face.toNat p.piece.toNat).zip (List.range p.bytes.length)).foldl (fun s x =>
      putCell g (p.base.toNat % 2) s x.1 (ofBytes ((p.bytes.drop (x.2 * g.size)).take g.size))) s

/-- The bases in flight or not yet started whose arrivals are kept. -/
def noteArrived (g : Grid) (p : Slab) (mismatch : Bool) : Grid :=
  { g with arrived := g.arrived ++ [{ base := p.base, face := p.face.toNat, piece := p.piece.toNat, bytes := if mismatch then 0 else p.bytes.length, mismatch := mismatch, fixed := p.fixed }] }

/-- The exchange of a base that is in flight for a slot. -/
def exchangeOf (s : State) (n : Nat) (b : BitVec 32) : Option Exchange :=
  s.eng.exchanges.find? fun x => decide (x.slot = n) && decide (x.base = b)

/-- The descriptor under which a base is exchanged: as it stood at the start of its exchange (R336). -/
def exchangeGeo (s : State) (n : Nat) (b : BitVec 32) : Geo := geoOf (((exchangeOf s n b).map (·.desc)).getD (gridOf s n).desc)

/-- The exchange of a base has started here. -/
def hasStarted (g : Grid) (b : BitVec 32) : Bool := decide (0 ≤ (g.last - b).toInt)

/-- A face has no neighbour (R313): no other core lies across it, and the own fill lands it. -/
def faceAlone (g : Geo) (p : Int × Int) (face : Nat) : Bool :=
  match (if face ≤ 1 then acrossX g p (decide (face = 1)) else acrossY g p (decide (face = 3))) with
  | some q => decide (q = p)
  | none => true

/-- What the core derives from the pieces of a face of a slot that have landed: corners whose x maps within the core,
and the cells of Z above and below them and the pieces; above a block that is not written, none (R308). What a face that
has no neighbour takes by the own rules stands already. -/
def deriveFace (s : State) (n : Nat) (geo : Geo) (place : Int × Int) (f : Nat) (b : BitVec 32) : State :=
  let buf := b.toNat % 2
  let corners := if faceAlone geo place f then [] else cornerCells geo place f
  let s := corners.foldl (fun s x => putCell geo buf s x.1 (cellValue s geo buf x.2 x.1.2.1 x.1.2.2)) s
  let s := fillColumns s geo buf false (columnsOf (corners.map (·.1)))
  (expectedPieces geo place f).foldl (fun s k =>
    match (gridOf s n).arrived.find? fun a => decide (a.base = b) && decide (a.face = f) && decide (a.piece = k.1) && decide (a.bytes ≠ 0) with
    | some a => fillColumns s geo buf a.fixed (columnsOf (pieceCells geo f k.1))
    | none => s) s

/-- The record of a landing (R386): the level and the command of the exchange of its base, which are free while none
has started. [log 29: DESIGN CHOICE] -/
def landedEvent (s : State) (n : Nat) (b : BitVec 32) : State :=
  match exchangeOf s n b with
  | some x => recordEvent s { kind := 10, unit := 3, lvl := x.fin.level, sub := n, status := 0, tag := x.fin.tag.toNat, count := b.toNat, info := zextField x.fin.word }
  | none =>
    if eventOn s 3 then
      let d := draw s (2 ^ 43)
      recordEvent d.2 { kind := 10, unit := 3, lvl := d.1 % 24, sub := n, status := 0, tag := d.1 / 2 ^ 5 % 64, count := b.toNat, info := word (d.1 / 2 ^ 11) }
    else s

/-- Land a face of a base (R308, R311): when all its pieces are held. The corner blocks of a face that has no
neighbour are written as they come, the face itself having landed at once (R313). -/
def tryLand (s : State) (n f : Nat) (b : BitVec 32) : State :=
  let g := gridOf s n
  let geo := exchangeGeo s n b
  let place := gridPlace s geo
  let face := g.faces.get f
  let mine := face.held.filter fun p => decide (p.base = b)
  let alone := faceAlone geo place f
  if !g.defined || !mayLand g b || mine.isEmpty
      || !(alone || (expectedPieces geo place f).all fun k => mine.any fun p => decide (p.piece.toNat = k.1)) then s
  else
    let s := mine.foldl (fun s p => writeSlab s geo p) s
    let rest := { face with held := face.held.filter fun p => decide (p.base ≠ b) }
    let s := setGrid s n (mine.foldl (fun g p => noteArrived g p false) { g with faces := g.faces.set f (if alone then rest else recordBase rest b) })
    let s := if hasStarted g b then deriveFace s n geo place f b else s
    if alone then s else landedEvent s n b

/-- Every held base of a slot that may land now (R312). -/
def landHeld (s : State) (n : Nat) : State :=
  (List.range 4).foldl (fun s f =>
    (((gridOf s n).faces.get f).held.map (·.base)).eraseDups.foldl (fun s b => tryLand s n f b) s) s

/-- A core that no slab comes from or goes to: fenced, or on a device that no path reaches (R318). -/
def isCut (s : State) (target : BitVec 18) : Bool := isFencedCore s target || (decide (idDev target ≠ ownDev s) && !reachable s (idDev target))

/-- The core that an awaited piece comes from is cut off. -/
def isGone (s : State) (x : Exchange) (w : Nat × Nat) : Bool :=
  let geo := geoOf x.desc
  (pieceSource geo (gridPlace s geo) w.1 w.2).any fun q => isCut s (coreAt geo q)

/-- An awaited piece has landed, or was discarded for its size. -/
def hasArrived (s : State) (x : Exchange) (w : Nat × Nat) : Bool :=
  (gridOf s x.slot).arrived.any fun a => decide (a.base = x.base) && decide (a.face = w.1) && decide (a.piece = w.2)

/-- A face of the exchange can never land: a piece of it does not come, or was discarded (R308, R311, R318). -/
def faceBlocked (s : State) (x : Exchange) (f : Nat) : Bool :=
  (x.waits.any fun w => decide (w.1 = f) && !hasArrived s x w && isGone s x w)
    || (gridOf s x.slot).arrived.any fun a => decide (a.base = x.base) && decide (a.face = f) && a.mismatch

/-- A piece is held and may land. -/
def isHeldPiece (s : State) (x : Exchange) (w : Nat × Nat) : Bool :=
  mayLand (gridOf s x.slot) x.base
    && ((gridOf s x.slot).faces.get w.1).held.any fun p => decide (p.base = x.base) && decide (p.piece.toNat = w.2)

/-- Every inbound slab of the exchange has landed, or does not come (R309, R318, R337). -/
def exchangeDone (s : State) (x : Exchange) : Bool :=
  x.waits.all fun w => hasArrived s x w || isGone s x w || (faceBlocked s x w.1 && isHeldPiece s x w)

/-- Complete one exchange (R318, R337). What has arrived of its base is remembered: the core that it came from has
started the base (R313). -/
def endExchange (s : State) (x : Exchange) : State :=
  let g := gridOf s x.slot
  let mine := g.arrived.filter fun a => decide (a.base = x.base)
  let status := if x.waits.any fun w => !hasArrived s x w && isGone s x w then addCause x.status 9 else x.status
  let bytes := mine.foldl (fun n a => n + a.bytes) 0
  let unheld := fun (t : Table Face) f => t.set f { t.get f with held := (t.get f).held.filter fun p => decide (p.base ≠ x.base) }
  let g := { g with
    faces := ((List.range 4).filter (faceBlocked s x)).foldl unheld g.faces
    lastDone := g.lastDone || decide (g.last = x.base) }
  completeOp (setGrid { s with eng := { s.eng with exchanges := s.eng.exchanges.erase x } } x.slot g) x.fin 3 x.slot status bytes

/-- Complete every exchange whose slabs have all landed. -/
def finishExchanges (s : State) : State :=
  s.eng.exchanges.foldl (fun s x => if exchangeDone s x then endExchange s x else s) s

/-- A piece whose size does not match is discarded, and the exchange of its base meets GEOM (R311). -/
def discardSlab (s : State) (p : Slab) : State :=
  let n := p.slot.toNat
  let hit := fun (x : Exchange) => if x.slot = n && decide (x.base = p.base) then { x with status := addCause x.status 8 } else x
  setGrid { s with eng := { s.eng with exchanges := s.eng.exchanges.map hit } } n (noteArrived (gridOf s n) p true)

/-- A piece is held at its face. -/
def holdPiece (g : Grid) (p : Slab) : Grid :=
  let face := g.faces.get p.face.toNat
  { g with faces := g.faces.set p.face.toNat { face with held := face.held ++ [p] } }

/-- SLAB (R311, R312): a piece arrives at the core; it is held, landed or discarded. -/
def slabArrives (s : State) (p : Slab) : State :=
  let n := p.slot.toNat
  let g := gridOf s n
  if 3 < p.face.toNat then s
  else if g.defined && !sizeMatches (geoOf g.desc) p then finishExchanges (discardSlab s p)
  else finishExchanges (tryLand (setGrid s n (holdPiece g p)) n p.face.toNat p.base)

/-- A piece for a partition that is not resident is held with its context, and judged once it is resident again. [log 29: DESIGN CHOICE] -/
def holdAway (s : State) (p : Slab) : State :=
  let n := p.slot.toNat
  let put := fun (c : Context) =>
    if field c.cpu.partid 0 6 = p.part.toNat then { c with eng := { c.eng with grids := c.eng.grids.set n (holdPiece (c.eng.grids.get n) p) } } else c
  { s with contexts := s.contexts.map put }

/-- The pieces that were held while the core was away are judged (R311). -/
def judgeHeld (s : State) : State :=
  (List.range 8).foldl (fun s n =>
    let g := gridOf s n
    if !g.defined then s
    else
      let all := (List.range 4).flatMap fun f => (g.faces.get f).held
      let bad := all.filter fun p => !sizeMatches (geoOf g.desc) p
      let unheld := fun (t : Table Face) f => t.set f { t.get f with held := (t.get f).held.filter fun p => !(bad.contains p) }
      let s := bad.foldl discardSlab (setGrid s n { g with faces := (List.range 4).foldl unheld g.faces })
      finishExchanges (landHeld s n)) s

/-- A piece reaches the core of its partition, or finds that partition not resident. -/
def slabReaches (s : State) (p : Slab) : State :=
  if s.cpu.poweredOff then s
  else if s.cpu.away || decide (p.part ≠ partOf s) then holdAway s p
  else slabArrives s p

/-- SLAB. [log 29: DESIGN CHOICE] -/
def execSlab (p : Slab) (s : State) : Host.Outcome State Fault Refusal := .next (slabReaches s p)

/-- A SLAB packet (R400): its header, its place in the piece and the piece's length, and a part of the data. The
piece is complete with its last packet. [log 29: DESIGN CHOICE] -/
def slabPacketArrives (s : State) (p : Packet) : State :=
  let head : Slab := { slot := BitVec.ofNat 3 (bodyField p.body 0 1), face := BitVec.ofNat 3 (bodyField p.body 1 1),
                       piece := BitVec.ofNat 2 (bodyField p.body 2 1), base := BitVec.ofNat 32 (bodyField p.body 4 4), part := p.part, bytes := [] }
  let same := fun (q : Slab) => decide ({ q with bytes := [], fixed := false } = head)
  let sofar := ((s.fab.slabParts.find? same).map (·.bytes)).getD []
  let piece := { head with bytes := sofar ++ p.body.drop 16, fixed := decide (bodyField p.body 2 1 / 128 = 1) }
  let others := s.fab.slabParts.filter fun q => !(same q)
  let done := decide (bodyField p.body 8 8 ≤ piece.bytes.length)
  let s := { s with fab := { s.fab with slabParts := if done then others else piece :: others } }
  if done then slabReaches s piece else s

/-! ## Sending bands (R309 step 2, R310) -/

/-- The piece that the core at place `own` sends to the core at place `peer`. -/
def pieceData (s : State) (g : Geo) (peer own : Int × Int) (b : Nat) (face piece : Nat) : List Byte :=
  let up := fun (c : Int) (n : Nat) => decide (sideOf c n = .high)
  (pieceCells g face piece).flatMap fun c =>
    let x : Int := if peer.1 = own.1 && decide (piece = 0) && decide (2 ≤ face) then c.1 else if up c.1 g.nx then c.1 - g.nx else c.1 + g.nx
    let ySide := sideOf c.2.1 g.ny
    let v := match ySide with
      | .inside => cellValue s g b x c.2.1 c.2.2
      | sd =>
        let top := decide (sd = .high)
        let f := if top then 3 else 2
        match acrossY g (own.1, peer.2) top with
        | some _ => cellValue s g b x (if top then c.2.1 - g.ny else c.2.1 + g.ny) c.2.2
        | none =>
          match mapLocal (g.rule f) f g.ny c.2.1 with
          | .cell y => cellValue s g b x y c.2.2
          | .fix f => (g.fix.getD f 0).toNat
          | .open_ => 0
    toBytes g.size v

/-- The places around a core, with wraps, itself left out. -/
def aroundPlaces (g : Geo) (p : Int × Int) : List (Int × Int) :=
  let xs := [some p] ++ [acrossX g p false, acrossX g p true]
  let ys := fun (q : Int × Int) => [some q, acrossY g q false, acrossY g q true]
  (((xs.filterMap id).flatMap ys).filterMap id).eraseDups.filter fun q => decide (q ≠ p)

/-- A slab's packets (R310, R400): at most 4096 bytes each. [log 29: DESIGN CHOICE] -/
def slabPackets (s : State) (g : Geo) (target : BitVec 18) (n face piece : Nat) (fixed : Bool) (b : BitVec 32) (data : List Byte) : List Packet :=
  (List.range (max 1 (ceilDiv data.length 4080))).map fun i =>
    { ddev := BitVec.ofNat 8 (idDev target), dport := corePort target, sport := corePort s.cpu.coreId, part := partOf s,
      vc := if g.c3 then 3 else 2, kind := 0x0E, sdev := BitVec.ofNat 8 (ownDev s), flow := 0, pa := 0,
      body := toBytes 1 n ++ toBytes 1 face ++ toBytes 1 (piece + 128 * bnat fixed) ++ toBytes 1 i ++ toBytes 4 b.toNat ++ toBytes 8 data.length ++ (data.drop (4080 * i)).take 4080 }

/-- A rule of the sender's own Y face gives the corner block of a piece: under OPEN nothing is sent but the block's
arrival, and under FIXED no coordinate maps any further (R308). -/
def ruledBlock (g : Geo) (peer own : Int × Int) (face piece rule : Nat) : Bool :=
  decide (piece ≠ 0) && (acrossY g (own.1, peer.2) (decide (face = 3))).isNone && decide (g.rule face = rule)

/-- Send every band that the cores around need (R308, R309). -/
def sendBands (s : State) (g : Geo) (n : Nat) (b : BitVec 32) : State :=
  let own := gridPlace s g
  let out := (aroundPlaces g own).flatMap fun peer =>
    (List.range 4).flatMap fun f =>
      ((expectedPieces g peer f).filter fun k => decide (k.2 = own)).map fun k => (peer, f, k.1)
  out.foldl (fun s o =>
    let target := coreAt g o.1
    if isCut s target then s
    else
      let data := if ruledBlock g o.1 own o.2.1 o.2.2 4 then [] else pieceData s g o.1 own (b.toNat % 2) o.2.1 o.2.2
      (slabPackets s g target n o.2.1 o.2.2 (ruledBlock g o.1 own o.2.1 o.2.2 1) b data).foldl (fun s p => sendPacket s p []) s) s

/-- An exchange of a base starts (R309, R311): the bands leave, the own cells are filled, and with them what follows
from pieces that landed before; faces without a neighbour land at once. [log 29: DESIGN CHOICE] -/
def startExchange (s : State) (n : Nat) (b : BitVec 32) (fin : Completion) : State :=
  let g := gridOf s n
  let geo := geoOf g.desc
  let place := gridPlace s geo
  let s := recordEvent s { kind := 9, unit := 3, lvl := fin.level, sub := n, status := 0, tag := fin.tag.toNat, count := b.toNat, info := zextField fin.word }
  let s := sendBands s geo n b
  let s := fillOwn s geo place (b.toNat % 2)
  let landed := (List.range 4).filter fun f => faceAlone geo place f || decide ((g.faces.get f).newest = some b)
  let s := landed.foldl (fun s f => deriveFace s n geo place f b) s
  let need := (List.range 4).flatMap fun f => (expectedPieces geo place f).map fun k => (f, k.1, k.2)
  let cut := need.any fun k => isCut s (coreAt geo k.2.2)
  let early := g.arrived.any fun a => decide (a.base = b) && a.mismatch
  let alone := ((List.range 4).filter fun f => faceAlone geo place f) ++ (if geo.dim3 then [4, 5] else [])
  let faces := alone.foldl (fun (t : Table Face) f => t.set f (recordBase (t.get f) b)) g.faces
  let newest := fun (a : Arrived) => g.arrived.all fun c => decide (c.face ≠ a.face) || decide (c.piece ≠ a.piece) || decide (0 ≤ (a.base - c.base).toInt)
  let arrived := g.arrived.filter fun a => decide (a.base = b) || newest a || (s.eng.exchanges.any fun x => decide (x.slot = n) && decide (x.base = a.base))
  let s := setGrid s n { g with faces := faces, last := b, lastDone := false, arrived := arrived }
  let x : Exchange := { slot := n, desc := g.desc, base := b, fin := fin, status := if early then 8 else if cut then 9 else 0, waits := need.map fun k => (k.1, k.2.1) }
  finishExchanges (landHeld { s with eng := { s.eng with exchanges := s.eng.exchanges ++ [x] } } n)

/-- GRDEF at the engine (R312, R335): the slot's bases go, exchanges of the earlier definition complete,
s := STEP, and slabs held for an undefined slot are judged. -/
def defineGrid (s : State) (n : Nat) (desc : List Word) : State :=
  let s := (s.eng.exchanges.filter fun x => decide (x.slot = n)).foldl endExchange s
  let old := gridOf s n
  let geo := geoOf desc
  let all := fun (f : Nat) => if old.defined then [] else (old.faces.get f).held
  let keep := fun (f : Nat) => (all f).filter (sizeMatches geo)
  let bad := (List.range 4).flatMap fun f => (all f).filter fun p => !sizeMatches geo p
  let faces := (List.range 4).foldl (fun (t : Table Face) f => t.set f { newest := none, older := none, held := keep f }) []
  let g : Grid := { defined := true, born := s.own.tick, desc := desc, s := BitVec.ofNat 32 geo.step, faces := faces, last := 0, lastDone := false, arrived := [] }
  setGrid s n (bad.foldl (fun g p => noteArrived g p true) g)

/-- The entry of q2 that the engine takes (R337): of the highest level, the earliest. -/
def nextLevee (q : List LeveeCmd) : Option LeveeCmd :=
  q.foldl (fun b c => match b with
    | none => some c
    | some x => if x.fin.level < c.fin.level then some c else b) none

/-- LEVEE_TAKE (R335, R337); a buffer in a stash region ends the exchange with ACCESS (R206). -/
def leveeTakes (s : State) : State :=
  if enginesHeld s || enginesFrozen s then s
  else
    match nextLevee (s.eng.q2.filter fun c => accepts s 3 c.fin) with
    | none => s
    | some c =>
      let s := commandEvent { s with eng := { s.eng with q2 := s.eng.q2.erase c } } c.fin 1 3 c.slot
      let s := match c.desc with
        | some d => defineGrid s c.slot d
        | none => s
      match c.base with
      | some b =>
        let g := geoOf (gridOf s c.slot).desc
        if inStash s (ownKey s (if b.toNat % 2 = 0 then g.base0 else g.base1)) g.bufferBytes then
          completeOp (setGrid s c.slot { gridOf s c.slot with last := b, lastDone := true }) c.fin 3 c.slot 5 0
        else startExchange s c.slot b c.fin
      | none => completeOp s c.fin 3 c.slot 0 0

/-- LEVEE_TAKE. -/
def execLeveeTake (s : State) : Host.Outcome State Fault Refusal := .next (leveeTakes s)

/-! ## The instructions (R335 to R339) -/

/-- GRIDERR (R320). -/
def gridTrap (s : State) (reason : Nat) (operand : Word) : Res := .trap s causeGriderr (reasoned reason operand)

/-- GRDEF (R320, R335). A reserved field of a clean word comes before the poison of another (R59, R319); the words FIX
are judged by the element size, which stands in word 0. -/
def grdefBody (a : Reg) (n : BitVec 3) (s : State) : Res :=
    let x := readX s a
    if x.toNat % 8 ≠ 0 || decide (x.toNat < 0x800) || decide (0x100000 < x.toNat + 128) then gridTrap s 2 x
    else if inStash s (ownKey s x.toNat) 128 then .trap s causeAccess x
    else
      let w := (List.range 16).map (dword (cleanBytes s (ownKey s x.toNat) 128))
      if geoReserved (if localPoison s (ownKey s x.toNat) 8 then w.take 8 ++ List.replicate 6 0 ++ w.drop 14 else w) then .rsvd s
      else if localPoison s (ownKey s x.toNat) 128 then .trap s causePoison x
      else
        match geoReason s w with
        | some (r, v) => gridTrap s r v
        | none =>
          let c : LeveeCmd := { slot := n.toNat, base := some (BitVec.ofNat 32 (geoOf w).step), fin := plainFin s (.grdef a n) 0 0, desc := some w }
          .ok { issued s with eng := { s.eng with q2 := s.eng.q2 ++ [c] } }

/-- GRBC (R336). [log 76: DEDUCED] -/
def grbcBody (a : Reg) (n : BitVec 3) (s : State) : Res :=
  let x := readX s a
  let f := field x 0 3
  let r := field x 3 3
  let g := gridOf s n.toNat
  let geo := geoOf g.desc
  let w0 := g.desc.getD 0 0
  let changed := withField w0 (24 + 3 * f) 3 r
  if 5 ≤ r || (decide (r = 1) && g.defined && decide ((readE s 0).toNat / 2 ^ (8 * geo.size) ≠ 0)) then .rsvd s
  else if !g.defined then gridTrap s 1 (zextField n)
  else if 5 < f || decide (field x 6 58 ≠ 0) || decide ((r = 0) ≠ (geo.rule f = 0)) then gridTrap s 10 x
  else if periodicBad (geoOf (setAt g.desc 0 changed)) then gridTrap s 8 w0
  else
    let desc := setAt g.desc 0 changed
    .ok (setGrid s n.toNat { g with desc := if r = 1 then setAt desc (8 + f) (readE s 0) else desc })

/-- GRSTEP (R309, R337). -/
def grstepBody (n : BitVec 3) (q : BitVec 2) (s : State) : Res :=
    let e3 := readE s 3
    let g := gridOf s n.toNat
    if field e3 0 23 ≠ 0 then .rsvd s
    else
      (issueFin s (.grstep n q) q e3).run fun s fin =>
        if !g.defined then gridTrap s 1 (zextField n)
        else
          let now := g.s + 1
          let starts := decide (now.toNat % (geoOf g.desc).dep = 0)
          let c : LeveeCmd := { slot := n.toNat, base := if starts then some now else none, fin := fin, desc := none }
          let s := setGrid s n.toNat { g with s := now }
          .ok (finishExchanges (landHeld { issued s with eng := { s.eng with q2 := s.eng.q2 ++ [c] } } n.toNat))

/-- A signed 16-bit coordinate of LDHS. -/
def coordinate (x : Word) (i : Nat) : Int := (BitVec.ofNat 16 (field x (16 * i) 16)).toInt

/-- The value of a STALE trap (R314). -/
def staleWord (reason : Nat) (n : BitVec 3) (face : Nat) (st : BitVec 32) : Word :=
  at_ 56 reason ||| at_ 53 n.toNat ||| at_ 50 face ||| zextField st

/-- How LDHS decides on a ghost cell at distance δ of a face (R313): the load, STALE with a reason, or the
wait for a slab. -/
inductive Decision where
  | load
  | stale (reason : Nat)
  | wait
  deriving DecidableEq, Repr

/-- Every core that contributes to a face has started the exchange of a base (R313): it has when a piece of it, or of a
later base, has come; else another core's start comes at a step that is free, the same for every look at it (R344). [log 30: DESIGN CHOICE] -/
def contributorsStarted (s : State) (n : Nat) (g : Grid) (face : Nat) (b : BitVec 32) : Bool :=
  let geo := geoOf g.desc
  (if 3 < face then [] else expectedPieces geo (gridPlace s geo) face).all fun k =>
    ((g.faces.get face).held.any fun p => decide (0 ≤ (p.base - b).toInt) && decide (p.piece.toNat = k.1))
      || (g.arrived.any fun a => decide (0 ≤ (a.base - b).toInt) && decide (a.face = face) && decide (a.piece = k.1))
      || decide (Config.exchangeStart g.born n (coreAt geo k.2) b ≤ s.own.tick)

/-- b of R313: the largest landed base at or below s. -/
def landedBase (f : Face) (st : BitVec 32) : Option (BitVec 32) :=
  ((f.newest.toList ++ f.older.toList).filter fun b => decide (0 ≤ (st - b).toInt)).foldl (fun acc b => match acc with
    | none => some b
    | some x => if (x - b).toInt < 0 then some b else acc) none

/-- The decision of R313. A core starts its exchanges in the order of their bases, so one of a base above `b` that has
not landed exists once that of the next base has started. -/
def decideLoad (s : State) (n : Nat) (g : Grid) (face : Nat) (dist : Nat) : Decision :=
  let geo := geoOf g.desc
  let absent := fun (next : BitVec 32) => if contributorsStarted s n g face next then Decision.wait else .stale 1
  match landedBase (g.faces.get face) g.s with
  | some b =>
    let age := (g.s - b).toNat
    if age < geo.dep then (if dist ≤ geo.rad * (geo.dep - age) then .load else .stale 2)
    else absent (b + BitVec.ofNat 32 geo.dep)
  | none => absent (BitVec.ofNat 32 geo.step)

/-- A stalled LDHS has waited as long as it may (R313). -/
def stallOver (s : State) : Bool := s.cpu.ldhsSince.any fun w => decide (w.1.toNat + 2400 ≤ s.cpu.time.toNat)

/-- The face of a ghost cell (R338) and its distance. -/
def ghostFace (g : Geo) (x y z : Int) : Option (Nat × Nat) :=
  let dist := fun (c : Int) (n : Nat) => if c < 0 then (-c).toNat else if c < (n : Int) then 0 else (c - n + 1).toNat
  let far := max (dist x g.nx) (max (dist y g.ny) (dist z g.nz))
  if sideOf z g.nz ≠ .inside then some (if z < 0 then 4 else 5, far)
  else if sideOf y g.ny ≠ .inside then some (if y < 0 then 2 else 3, far)
  else if sideOf x g.nx ≠ .inside then some (if x < 0 then 0 else 1, far)
  else none

/-- The cell lies beyond the padded frame (R320 reason 9). -/
def beyondFrame (g : Geo) (x y z : Int) : Bool :=
  let out := fun (c : Int) (n w : Nat) => decide (c < -(w : Int)) || decide ((n + w : Nat) ≤ c)
  out x g.nx g.w || out y g.ny g.w || (if g.dim3 then out z g.nz g.w else decide (z ≠ 0))

/-- LDHS (R313, R338): the read is a plain load of local memory (R227, R246). -/
def ldhsBody (d a : Reg) (n : BitVec 3) (s : State) : Res :=
  let v := readX s a
  let g := gridOf s n.toNat
  let geo := geoOf g.desc
  let x := coordinate v 0
  let y := coordinate v 1
  let z := coordinate v 2
  let key := ownKey s (geo.addr (g.s.toNat % 2) x y z)
  let load := fun (s : State) =>
    if isFenced s 0 then Res.stall (waitFenced s 0)
    else if inStash s key geo.size then .trap s causeAccess (word (geo.addr (g.s.toNat % 2) x y z))
    else if localPoison s key geo.size then .trap s causePoison (word (geo.addr (g.s.toNat % 2) x y z))
    else .ok (writeX { s with cpu := { s.cpu with ldhsSince := none } } d (placeLane (laneType geo.et) (ofBytes (seenLocals s key geo.size))))
  if !g.defined then gridTrap s 1 (zextField n)
  else if field v 48 16 ≠ 0 || beyondFrame geo x y z then gridTrap s 9 v
  else
    match ghostFace geo x y z with
    | none => load s
    | some (f, dist) =>
      match decideLoad s n.toNat g f dist with
      | .load => load s
      | .stale r => .trap { s with cpu := { s.cpu with ldhsSince := none } } causeStale (staleWord r n f g.s)
      | .wait =>
        if stallOver s then .trap { s with cpu := { s.cpu with ldhsSince := none } } causeStale (staleWord 3 n f g.s)
        else
          let s := countEvent s 8 (Config.cycles s.own.tick)
          .stall { s with cpu := { s.cpu with ldhsSince := some (s.cpu.ldhsSince.getD (s.cpu.time, staleWord 3 n f g.s)) } }

/-- GRQ (R339). -/
def grqBody (d a : Reg) (n : BitVec 3) (s : State) : Res :=
  let v := readX s a
  let g := gridOf s n.toNat
  let val := fun (b : Option (BitVec 32)) => (b.getD 0).toNat
  if 8 < v.toNat then gridTrap s 10 v
  else if !g.defined then .ok (writeX s d 0)
  else
    let r := match v.toNat with
      | 0 => zextField g.s
      | 1 => at_ 32 g.last.toNat ||| at_ 1 (bnat g.lastDone) ||| 1
      | 8 => (List.range 6).foldl (fun (w : Word) f =>
          let face := g.faces.get f
          w ||| at_ f (bnat face.newest.isSome) ||| at_ (8 + f) (bnat face.older.isSome) ||| at_ (16 + f) (bnat (!face.held.isEmpty))) 0
      | k => let face := g.faces.get (k - 2); at_ 32 (val face.newest) ||| at_ 0 (val face.older)
    .ok (writeX s d r)

/-- GRDEF. -/
def execGrdef (a : Reg) (n : BitVec 3) (s : State) : Host.Outcome State Fault Refusal := runInstr (.grdef a n) (grdefBody a n) s
/-- GRBC. -/
def execGrbc (a : Reg) (n : BitVec 3) (s : State) : Host.Outcome State Fault Refusal := runInstr (.grbc a n) (grbcBody a n) s
/-- GRSTEP. -/
def execGrstep (n : BitVec 3) (q : BitVec 2) (s : State) : Host.Outcome State Fault Refusal := runInstr (.grstep n q) (grstepBody n q) s
/-- LDHS. -/
def execLdhs (d a : Reg) (n : BitVec 3) (s : State) : Host.Outcome State Fault Refusal := runInstr (.ldhs d a n) (ldhsBody d a n) s
/-- GRQ. -/
def execGrq (d a : Reg) (n : BitVec 3) (s : State) : Host.Outcome State Fault Refusal := runInstr (.grq d a n) (grqBody d a n) s

/-- LDHS_STALL_LIMIT (R313): a stalled LDHS that has waited 2.4 µs traps STALE with reason 3. -/
def stallLimit (s : State) : State :=
  match s.cpu.ldhsSince with
  | none => s
  | some (_, v) =>
    if stallOver s && s.cpu.parked.isNone && !s.cpu.halted && !s.cpu.away then
      takeTrap { s with cpu := { s.cpu with ldhsSince := none }, own := { s.own with turn := .core } } causeStale v
    else s

/-- LDHS_STALL_LIMIT. -/
def execLdhsStallLimit (s : State) : Host.Outcome State Fault Refusal := .next (stallLimit s)

end Sys2Proof.Machine
end

