-- ==== Sys2Proof/Machine/Matrix.lean ====
section
/-! DEFINITION. The matrix engine: its six commands, the order in which it serves them, the chunks of a
product, fetch faults and the MFETCH trap (R119 to R121, R287 to R294, R326 to R332, R348). -/

namespace Sys2Proof.Machine

/-! ## Formats (R102, R112) -/

/-- Bits per element of a stored format; TERNARY has 5 elements to a byte. -/
def formatBits (code : Nat) : Nat :=
  match codeType code with
  | some t => t.width
  | none => 1

/-- A format of the float class (R102). -/
def isFloatClass (code : Nat) : Bool := decide (code ≤ 0x0C) || decide (code = 0x15) || decide (code = 0x16)

/-- A generated format. -/
def isGenerated (code : Nat) : Bool := decide (0x14 ≤ code) && decide (code ≤ 0x17)

/-- A block-scaled format. -/
def isScaled (code : Nat) : Bool := decide (0x09 ≤ code) && decide (code ≤ 0x0C)

/-- The chunk of a format (R102). -/
def formatChunk (code : Nat) : Nat :=
  if code ≤ 2 then 16 else if [3, 4, 5, 0x0B, 0x0D, 0x0E].contains code then 32 else 64

/-- The value of an E3M5 scale byte (R112). -/
def scaleValue (b : Nat) : Num :=
  let e := b / 32
  let f := b % 32
  if e = 0 then .fin false f (-7) else .fin false (32 + f) ((e : Int) - 8)

/-! ## Commands (R288 to R291, R326 to R331) -/

/-- AFMT, BFMT, K and the chunk of a command. -/
def MatrixCmd.afmt (c : MatrixCmd) : Nat := field c.e2 21 5
/-- BFMT. -/
def MatrixCmd.bfmt (c : MatrixCmd) : Nat := field c.e2 16 5
/-- K. -/
def MatrixCmd.k (c : MatrixCmd) : Nat := 16 * (field c.e2 26 6 + 1)
/-- The chunk size C (R119); MMAC's A counts as chunk 16 (R291). -/
def MatrixCmd.chunkSize (c : MatrixCmd) : Nat :=
  if c.kind = .mmac then 16 else min (formatChunk c.afmt) (formatChunk c.bfmt)
/-- How many chunks a product has. -/
def MatrixCmd.chunks (c : MatrixCmd) : Nat := c.k / c.chunkSize
/-- The operation is of the float class (R119). -/
def MatrixCmd.isFloat (c : MatrixCmd) : Bool := isFloatClass c.afmt || isFloatClass c.bfmt
/-- MMA or MMAC. -/
def MatrixCmd.isProduct (c : MatrixCmd) : Bool := decide (c.kind = .mma) || decide (c.kind = .mmac)

/-- The generator register that an operand word names. -/
def operandGen (s : State) (e : Word) : BitVec 256 := readG s (field e 60 3)

/-- RSVD of one operand (R289): reserved bits, a format that does not go with GEN, a nonzero address or
distance beside GEN, a register that is not valid or of another kind. -/
def operandReserved (s : State) (e : Word) (fmt ld : Nat) : Bool :=
  let gen := bit e 63
  decide (0x18 ≤ fmt) || decide (gen ≠ isGenerated fmt) || decide (field e 55 5 ≠ 0)
    || (gen && (decide (field e 0 55 ≠ 0) || decide (ld ≠ 0) || !genValid (operandGen s e) || decide (genKind (operandGen s e) ≠ fmt)))

/-- A nonzero reserved field of the scale words that the formats read (R290). -/
def scalesReserved (afmt bfmt : Nat) (w : List Word) : Bool :=
  let at55 := fun (i : Nat) => decide (field (w.getD i 0) 55 9 ≠ 0)
  (isScaled afmt && at55 0) || (isScaled bfmt && at55 1)
    || (decide (afmt = 0x0A) && decide (field (w.getD 2 0) 55 3 ≠ 0)) || (decide (bfmt = 0x0A) && decide (field (w.getD 3 0) 55 3 ≠ 0))

/-- The generator of an operand with its seed, resolved at issue (R298, R327). -/
def issueGen (s : State) (e : Word) : Option Generator := if bit e 63 then some (resolveGen s (operandGen s e)) else none

/-- An identity word that a generator's scope reads is poisoned (R223). -/
def seedPoison (s : State) (e : Word) : Option Word :=
  if bit e 63 then
    match scopeEntry (operandGen s e) with
    | some n => if localPoison s (ownKey s (8 * n)) 8 then some (word (8 * n)) else none
    | none => none
  else none

/-- A command of a kind with what it reads at issue. -/
def matrixCommand (s : State) (kind : MatrixKind) (t src : Nat) (scales : List Word) (addr ctl : Word) (rm : BitVec 3) (fin : Completion) : MatrixCmd where
  kind := kind
  tile := t
  src := src
  pc := readPc s
  e0 := readE s 0
  e1 := readE s 1
  e2 := readE s 2
  genA := if kind = .mma then issueGen s (readE s 0) else none
  genB := if kind = .mma || decide (kind = .mmac) then issueGen s (readE s 1) else none
  scales := scales
  addr := addr
  ctl := ctl
  rm := rm
  fin := fin

/-- The command enters q0. -/
def enqueue0 (s : State) (c : MatrixCmd) : Res := .ok { issued s with eng := { s.eng with q0 := s.eng.q0 ++ [c] } }

/-- The scale record at issue (R290), for the formats that need one, and the address of a poisoned one; without one SREC
is ignored, and of MMA, whose `strict` is set, it must be zero (R327). A reserved field of a clean word comes before
poison (R59, R319). -/
def readScales (s : State) (strict : Bool) (afmt bfmt : Nat) (srec : Nat) (f : State → List Word → Option Word → Res) : Res :=
  if isScaled afmt || isScaled bfmt then
    if srec % 32 ≠ 0 || decide (0xFFFE0 < srec) then .rsvd s
    else if inStash s (ownKey s srec) 32 then .trap s causeAccess (word srec)
    else
      let b := cleanBytes s (ownKey s srec) 32
      let w := [dword b 0, dword b 1, dword b 2, dword b 3]
      if scalesReserved afmt bfmt w then .rsvd s else f s w (if localPoison s (ownKey s srec) 32 then some (word srec) else none)
  else if strict && decide (srec ≠ 0) then .rsvd s
  else f s [] none

/-- The common end of MMA and MMAC at issue (R319): the completion fields, the scale record and the seeds, the queue.
[log 25: DEDUCED] [log 25: DEDUCED] -/
def issueProduct (s : State) (i : Instr) (kind : MatrixKind) (t src : Nat) (q : BitVec 2) (scales : List Word) (bad : Option Word) : Res :=
  (issueFin s i q (readE s 3)).run fun s fin =>
    match bad <|> (if kind = .mma then seedPoison s (readE s 0) else none) <|> seedPoison s (readE s 1) with
    | some a => .trap s causePoison a
    | none => enqueue0 s (matrixCommand s kind t src scales 0 0 0 fin)

/-- MMA (R288 to R290, R327). -/
def mmaBody (t q : BitVec 2) (s : State) : Res :=
    let e2 := readE s 2
    let af := field e2 21 5
    let bf := field e2 16 5
    if operandReserved s (readE s 0) af (field e2 48 16) || operandReserved s (readE s 1) bf (field e2 32 16) || decide (field e2 0 16 ≠ 0)
        || decide (16 * (field e2 26 6 + 1) % min (formatChunk af) (formatChunk bf) ≠ 0) then .rsvd s
    else readScales s true af bf (field (readE s 3) 0 23) fun s w bad => issueProduct s (.mma t q) .mma t.toNat 0 q w bad

/-- MMAC (R291, R328): of e0 only GEN is checked. -/
def mmacBody (t src q : BitVec 2) (s : State) : Res :=
    let e2 := readE s 2
    let af := field e2 21 5
    let bf := field e2 16 5
    if bit (readE s 0) 63 || decide (field e2 26 6 ≠ 0) || !([0x01, 0x04].contains af) || operandReserved s (readE s 1) bf (field e2 32 16)
        || decide (field e2 0 16 ≠ 0) then .rsvd s
    else readScales s false 0 bf (field (readE s 3) 0 23) fun s w bad => issueProduct s (.mmac t src q) .mmac t.toNat src.toNat q w bad

/-- ACLD, ACST, ACZ (R329, R330): completion mode 000, which has no tag, or 001 for ACST. -/
def wholeBody (i : Instr) (kind : MatrixKind) (t : BitVec 2) (addr : Word) (mode : BitVec 3) (s : State) : Res :=
  enqueue0 s (matrixCommand s kind t.toNat 0 [] addr 0 0 (plainFin s i mode (if mode = 0 then 0 else readE s 3)))

/-- RSVD of ACCVT (R331). -/
def accvtReserved (s : State) (x : Word) : Bool :=
  let fmt := field x 15 5
  let wide := (codeType fmt).any fun t => decide (8 < t.width)
  decide (field x 24 24 ≠ 0) || decide (field x 20 3 ≠ 0) || decide (field x 3 8 ≠ 0)
    || !(decide (fmt ≤ 8) || (decide (0x0D ≤ fmt) && decide (fmt ≤ 0x11))) || decide (field x 0 3 = 6)
    || (decide (field x 0 3 = 5) && (wide || !genValid (readG s (field x 12 3))))
    || (bit x 11 && decide (5 ≤ fmt) && decide (fmt ≤ 8))

/-- ACCVT (R331). -/
def accvtBody (t : BitVec 2) (a b : Reg) (s : State) : Res :=
    let x := readX s b
    if accvtReserved s x then .rsvd s
    else
      let rm := if field x 0 3 = 7 then field (readFpctl s) 0 3 else field x 0 3
      let gen := readG s (field x 12 3)
      let stochastic := decide (rm = 5)
      match (if stochastic then (scopeEntry gen).bind fun n => if localPoison s (ownKey s (8 * n)) 8 then some (word (8 * n)) else none else none) with
      | some p => .trap s causePoison p
      | none =>
        let c := matrixCommand s .accvt t.toNat 0 [] (readX s a) x (BitVec.ofNat 3 rm) (plainFin s (.accvt t a b) 1 (readE s 3))
        enqueue0 s (if stochastic then { c with genA := some (resolveGen s gen) } else c)

/-- MMA. -/
def execMma (t q : BitVec 2) (s : State) : Host.Outcome State Fault Refusal := runInstr (.mma t q) (mmaBody t q) s
/-- MMAC. -/
def execMmac (t r q : BitVec 2) (s : State) : Host.Outcome State Fault Refusal := runInstr (.mmac t r q) (mmacBody t r q) s
/-- ACLD. -/
def execAcld (t : BitVec 2) (a : Reg) (s : State) : Host.Outcome State Fault Refusal :=
  runInstr (.acld t a) (fun s => wholeBody (.acld t a) .acld t (readX s a) 0 s) s
/-- ACST. -/
def execAcst (t : BitVec 2) (a : Reg) (s : State) : Host.Outcome State Fault Refusal :=
  runInstr (.acst t a) (fun s => wholeBody (.acst t a) .acst t (readX s a) 1 s) s
/-- ACZ. -/
def execAcz (t : BitVec 2) (s : State) : Host.Outcome State Fault Refusal := runInstr (.acz t) (wholeBody (.acz t) .acz t 0 0) s
/-- ACCVT. -/
def execAccvt (t : BitVec 2) (a b : Reg) (s : State) : Host.Outcome State Fault Refusal := runInstr (.accvt t a b) (accvtBody t a b) s

/-! ## Operand fetch (R288, R290, R294) -/

/-- A run of operand bytes: which operand (0 A, 1 B, 2 scales of A, 3 scales of B), its row or column,
the index of its first byte within the operand's row, its address and length. -/
structure Run where
  opnd : Nat
  row : Nat
  first : Nat
  addr : Nat
  n : Nat

/-- The bytes of elements `lo` to `hi − 1` of a packed row: the first byte and the number (R103, R109). -/
def packedBytes (code lo hi : Nat) : Nat × Nat :=
  if code = 0x12 then (lo / 5, (hi - 1) / 5 + 1 - lo / 5)
  else let w := formatBits code; (lo * w / 8, (hi * w - 1) / 8 + 1 - lo * w / 8)

/-- The runs of one stored operand for elements `lo` to `hi − 1` of K. [log 28: DEDUCED] -/
def operandRuns (opnd code : Nat) (e : Word) (ld : Nat) (scale band : Word) (k lo hi : Nat) : List Run :=
  if isGenerated code then []
  else
    (List.range 16).flatMap fun i =>
      let b := packedBytes code lo hi
      let data : Run := { opnd := opnd, row := i, first := b.1, addr := field e 0 55 + i * ld + b.1, n := b.2 }
      let blocks : Run := { opnd := opnd + 2, row := i, first := lo / 8, addr := field scale 0 55 + i * k / 8 + lo / 8, n := (hi + 7) / 8 - lo / 8 }
      let q := (field band 58 6 + i) / 64
      let bands : Run := { opnd := opnd + 2, row := i, first := 1000, addr := field band 0 55 + 2 * q, n := 2 }
      [data] ++ (if isScaled code then [blocks] else []) ++ (if code = 0x0A then [bands] else [])

/-- The runs of a product for elements `lo` to `hi − 1` of K, A before B. -/
def productRuns (c : MatrixCmd) (lo hi : Nat) : List Run :=
  let sc := fun i => c.scales.getD i 0
  (if c.kind = .mma then operandRuns 0 c.afmt c.e0 (field c.e2 48 16) (sc 0) (sc 2) c.k lo hi else [])
    ++ operandRuns 1 c.bfmt c.e1 (field c.e2 32 16) (sc 1) (sc 3) c.k lo hi

/-- The positions of a generated operand's elements (R300). -/
def genPositions (a : Bool) (lo hi : Nat) : List (Nat × Nat) :=
  (List.range 16).flatMap fun i => (List.range (hi - lo)).map fun k => if a then (lo + k, i) else (i, lo + k)

/-- The position of a generator's value for an element: of the pair for ROTPH. -/
def pairPosition (g : Generator) (p : Nat × Nat) : BitVec 32 × BitVec 32 :=
  (BitVec.ofNat 32 (if genKind g.word = 0x16 then p.1 / 2 else p.1), BitVec.ofNat 32 p.2)

/-- The table bytes that generated operands read, as local runs (R301 to R303). [log 28: DEDUCED] -/
def tableReads (c : MatrixCmd) (lo hi : Nat) : List (Nat × Nat) :=
  let of_ := fun (g : Option Generator) (a : Bool) => match g with
    | some g => (genPositions a lo hi).filterMap fun p => genReads g (pairPosition g p).1 (pairPosition g p).2
    | none => []
  of_ c.genA true ++ of_ c.genB false

/-- A fetched byte, with its operand, row and index. -/
structure OperandByte where
  opnd : Nat
  row : Nat
  index : Nat
  val : Byte

/-- What a fetch has gathered: the bytes, the status of the first held word or poisoned granule that it met (R317),
and poison. -/
structure Gathered where
  bytes : List OperandByte
  cause : BitVec 16
  poison : Bool
  /-- lines of other devices: those that are not at hand, and all that the fetch reads -/
  lines : List FarLine
  used : List FarLine
  /-- places in global memory -/
  places : List Dest

/-- The outcome of an operand fetch. -/
inductive FetchedChunk where
  | ok (g : Gathered)
  | fault (f : FetchFault)

/-- Fetch one byte of a run. [log 90: DESIGN CHOICE] -/
def fetchOperandByte (s : State) (d : Nat) (fin : Completion) (r : Run) (acc : FetchedChunk) (i : Nat) : FetchedChunk :=
  match acc with
  | .fault f => .fault f
  | .ok g =>
    let a := r.addr + i
    match engineDest s d fin.part fin.sup .read a with
    | .error e => .fault { kind := BitVec.ofNat 2 (e.code - 2), opnd := BitVec.ofNat 2 r.opnd, addr := word a, xfstat := e.xfstat }
    | .ok x =>
      let b := engineByte s x
      let miss := missingLines s [x]
      .ok { bytes := { opnd := r.opnd, row := r.row, index := r.first + i, val := b.val } :: g.bytes, cause := readCause g.cause [b],
            poison := g.poison || (b.poison && miss.isEmpty), lines := miss ++ g.lines, used := remoteLines s [x] ++ g.used,
            places := match x with
              | .loc _ => g.places
              | .glob _ _ => x :: g.places }

/-- Fetch the operands of a product for elements `lo` to `hi − 1` of K. [log 28: DEDUCED] -/
def fetchProduct (s : State) (d : Nat) (c : MatrixCmd) (lo hi : Nat) : FetchedChunk :=
  let table := (tableReads c lo hi).any fun r => localPoison s (ownKey s r.1) r.2
  let start : Gathered := { bytes := [], cause := if table then 6 else 0, poison := table, lines := [], used := [], places := [] }
  (productRuns c lo hi).foldl (fun acc r => (List.range r.n).foldl (fetchOperandByte s d c.fin r) acc) (.ok start)

/-- An operand overlaps a stash region (R206, R294). -/
def productInStash (s : State) (c : MatrixCmd) : Bool :=
  ((productRuns c 0 c.k).any fun r => (List.range r.n).any fun i => decide (r.addr + i < 0x500000) && inStash s (localKey s (r.addr + i)) 1)
    || (tableReads c 0 c.k).any fun r => inStash s (ownKey s r.1) r.2

/-- A byte of an operand's row. -/
def Gathered.byte (g : Gathered) (opnd row index : Nat) : Nat :=
  ((g.bytes.find? fun b => decide (b.opnd = opnd) && decide (b.row = row) && decide (b.index = index)).map (·.val.toNat)).getD 0

/-! ## One chunk (R119 to R121, R291) -/

/-- An element's value, whether its data is reserved, and whether its operand raises NV by itself: a signalling
NaN, or 0 × ∞ among its factors (R113, R116). -/
abbrev Element := Num × Bool × Bool

/-- A stored element of a row (R103, R109, R113). A reserved scale byte makes it 0, whatever its band scale is
(R110). [log 81: DESIGN CHOICE] -/
def storedElement (g : Gathered) (opnd code row i : Nat) : Element :=
  let get := g.byte opnd row
  let x := match codeType code with
    | some t =>
      let b := i * t.width / 8
      let v := (get b + 256 * get (b + 1) + 65536 * get (b + 2) + 16777216 * get (b + 3)) / 2 ^ (i * t.width % 8) % 2 ^ t.width
      streamElement code v 0
    | none => if code = 0x12 then streamElement code (get (i / 5)) (i % 5) else streamElement code (get (i / 8)) (i % 8)
  if isScaled code then
    let sb := g.byte (opnd + 2) row (i / 8)
    if sb = 255 then (.fin false 0 0, true, false)
    else
      let v := (mulNum x.1 (scaleValue sb)).1
      if code = 0x0A then
        let band := g.byte (opnd + 2) row 1000 + 256 * g.byte (opnd + 2) row 1001
        let r := mulNum v (bf16.decode band)
        (r.1, x.2.1, x.2.2 || bf16.isSignalling band || decide (r.2 ≠ 0))
      else (v, x.2)
  else x

/-- A generated element (R300 to R302). -/
def generatedElement (s : State) (g : Generator) (p : Nat × Nat) : Element :=
  let q := pairPosition g p
  match drawNow s g q.1 q.2 with
  | .int v => if genKind g.word = 0x15 then (.fin (decide (v < 0)) v.natAbs (-7), false, false) else (intNum v, false, false)
  | .pair c n => (bf16.decode (if p.1 % 2 = 0 then c else n), false, false)

/-- The converter of MMAC (R291): rounding by RNE that saturates. -/
def saturating (f : Format) (x : Nat) : Result :=
  let r := f.round .rne false (fp32.decode x)
  let sn := flagIf (fp32.isSignalling x) flagNV
  if f.isInf r.bits then { bits := f.signed (f.sign r.bits) f.maxCode, flags := r.flags ||| sn } else { r with flags := r.flags ||| sn }

/-- Element (i, k) of A: fetched, generated, or converted from the source tile. -/
def elementA (s : State) (c : MatrixCmd) (g : Gathered) (i k : Nat) : Element :=
  if c.kind = .mmac then
    let f := if c.afmt = 1 then bf16 else e4m3
    (f.decode (saturating f (readTile s c.fin.level c.src i k).toNat).bits, false, false)
  else
    match c.genA with
    | some x => generatedElement s x (k, i)
    | none => storedElement g 0 c.afmt i k

/-- Element (k, j) of B. -/
def elementB (s : State) (c : MatrixCmd) (g : Gathered) (k j : Nat) : Element :=
  match c.genB with
  | some x => generatedElement s x (j, k)
  | none => storedElement g 1 c.bfmt j k

/-- An infinity of a sign among values. -/
def hasInf (l : List Num) (neg : Bool) : Bool := l.any fun v => decide (v = .inf neg)

/-- The exact sum of a chunk's products and its NV (R120, R121): NaN and NV for a product 0 × ∞ or for
infinities of both signs. [log 28: DEDUCED] -/
def chunkSum (l : List (Num × Flags)) : Num × Flags :=
  let vs := l.map (·.1)
  let flags := allOf l ||| flagIf (hasInf vs true && hasInf vs false) flagNV
  match vs with
  | [] => (.fin false 0 0, flags)
  | v :: t => (t.foldl (fun a b => (addNum .rne a b).1) v, flags)
where
  allOf (l : List (Num × Flags)) : Flags := l.foldl (fun f x => f ||| x.2) 0

/-- A whole number of an exact integer value. -/
def numInt (v : Num) : Int :=
  match v with
  | .fin neg m e => let x : Int := (m * 2 ^ e.toNat : Nat); if neg then -x else x
  | _ => 0

/-- One element of D after a chunk, with its flags (R119 to R121). -/
def chunkElement (isFloat : Bool) (old : BitVec 32) (as bs : List Element) : BitVec 32 × Flags :=
  let products := (as.zip bs).map fun p => mulNum p.1.1 p.2.1
  if isFloat then
    let signalling := flagIf ((as.zip bs).any fun p => p.1.2.2 || p.2.2.2) flagNV
    let sum := chunkSum products
    let t := fp32.round .rne false sum.1
    let r := fp32.add .rne old.toNat t.bits
    (BitVec.ofNat 32 r.bits, signalling ||| sum.2 ||| t.flags ||| r.flags)
  else (old + BitVec.ofInt 32 (products.foldl (fun a p => a + numInt p.1) 0), 0)

/-- The status bits of flags and of reserved data (R317). -/
def statusOf (flags : Flags) (dr : Bool) : BitVec 16 := BitVec.ofNat 16 (flags.toNat * 512 + bnat dr * 16384)

/-- A chunk is added to D: the tile's elements, and the status bits. -/
def addChunk (s : State) (c : MatrixCmd) (g : Gathered) (lo hi : Nat) : State × BitVec 16 :=
  let ks := (List.range (hi - lo)).map (lo + ·)
  let rows := (List.range 16).map fun i => ks.map (elementA s c g i)
  let cols := (List.range 16).map fun j => ks.map fun k => elementB s c g k j
  let els := (List.range 256).map fun n =>
    chunkElement c.isFloat (readTile s c.fin.level c.tile (n / 16) (n % 16)) (rows.getD (n / 16) []) (cols.getD (n % 16) [])
  let dr := (rows ++ cols).any fun l => l.any fun e => e.2.1
  let conv := if c.kind = .mmac then (List.range 256).foldl (fun f n => f ||| (saturating (if c.afmt = 1 then bf16 else e4m3) (readTile s c.fin.level c.src (n / 16) (n % 16)).toNat).flags) 0 else 0
  let flags := els.foldl (fun f e => f ||| e.2) conv
  (writeTile s c.fin.level c.tile (els.map (·.1)), statusOf flags dr)

/-! ## The commands that run whole (R329 to R332) -/

/-- The addresses of a row of a tile in memory. -/
def rowAddrs (c : MatrixCmd) (ld n i : Nat) : List Nat := (List.range n).map fun k => (c.addr.toNat + i * ld + k) % 2 ^ 64

/-- Resolve a row of bytes. -/
def resolveRow (s : State) (d : Nat) (c : MatrixCmd) (need : Need) (as : List Nat) : Except EngineFail (List Dest) :=
  (resolveSide s d c.fin need as).map fun l => l.map (·.2)

/-- Resolve bytes in order up to the first that fails. -/
def resolvePrefix (s : State) (d : Nat) (c : MatrixCmd) (need : Need) : List Nat → List Dest × Option EngineFail
  | [] => ([], none)
  | a :: as =>
    match engineDest s d c.fin.part c.fin.sup need a with
    | .error e => ([], some e)
    | .ok x =>
      let r := resolvePrefix s d c need as
      (x :: r.1, r.2)

/-- The addresses that ACLD reads, row by row. -/
def loadAddrs (c : MatrixCmd) : List Nat := (List.range 16).flatMap (rowAddrs c (field c.e2 48 16) 64)

/-- ACLD (R329, R332): all 1024 bytes, or nothing; the status names the first cause met (R317). -/
def loadTile (s : State) (c : MatrixCmd) (d : Nat) : State × BitVec 16 :=
  let r := resolvePrefix s d c .read (loadAddrs c)
  let bs := r.1.map (engineByte s)
  let status := readCause 0 bs
  let s := watchReads (dropLines s (remoteLines s r.1)) 2 r.1
  match r.2 with
  | some e => (s, addCause status e.code)
  | none =>
    if bs.any (·.poison) then (s, status)
    else
      let els := (List.range 256).map fun n => BitVec.ofNat 32 (ofBytes (((bs.map (·.val)).drop (4 * n)).take 4))
      (replaceTile s c.fin.level c.tile els, status)

/-- What row writes have done so far. -/
structure Storing where
  s : State
  status : BitVec 16
  stopped : Bool

/-- Write one row in order (R329, R332); `bits` are the row's flags. -/
def storeRow (c : MatrixCmd) (d ld : Nat) (k : Storing) (r : Nat × List Byte × BitVec 16) : Storing :=
  if k.stopped then k
  else
    match resolveRow k.s d c .write (rowAddrs c ld r.2.1.length r.1) with
    | .error e => { k with status := addCause k.status e.code, stopped := true }
    | .ok xs =>
      let status := if xs.any (isHeldPlace k.s) then addCause k.status 7 else k.status
      { k with s := engineWrite k.s 2 (some c.fin.id) (xs.zip r.2.1) [], status := status ||| r.2.2 }

/-- ACST (R329). -/
def storeTile (s : State) (c : MatrixCmd) (d : Nat) : State × BitVec 16 :=
  let rows := (List.range 16).map fun i => (i, (List.range 16).flatMap fun j => toBytes 4 (readTile s c.fin.level c.tile i j).toNat, (0 : BitVec 16))
  let k := rows.foldl (storeRow c d (field c.e2 48 16)) { s := s, status := 0, stopped := false }
  (k.s, k.status)

/-- One converted element of ACCVT (R331). -/
def convertedElement (s : State) (c : MatrixCmd) (t : NumType) (i j : Nat) : Result :=
  let x := (readTile s c.fin.level c.tile i j)
  let mode := if c.rm = 5 then (match c.genA with
      | some g => Mode.sr (genHash g (BitVec.ofNat 32 j) (BitVec.ofNat 32 i)).toNat
      | none => .rne) else modeOf c.rm.toNat
  if bit c.ctl 23 then t.round mode (bit c.ctl 11) (intNum x.toInt)
  else
    let r := t.round mode (bit c.ctl 11) (fp32.decode x.toNat)
    { r with flags := r.flags ||| flagIf (fp32.isSignalling x.toNat) flagNV }

/-- ACCVT (R331, R332). -/
def convertTile (s : State) (c : MatrixCmd) (d : Nat) : State × BitVec 16 :=
  match codeType (field c.ctl 15 5) with
  | none => (s, 0)
  | some t =>
    let row := fun (i : Nat) =>
      let rs := (List.range 16).map (convertedElement s c t i)
      let v := rs.foldr (fun r a => r.bits % 2 ^ t.width + a * 2 ^ t.width) 0
      (i, toBytes (2 * t.width) v, statusOf (rs.foldl (fun f r => f ||| r.flags) 0) false)
    let k := ((List.range 16).map row).foldl (storeRow c d (field c.ctl 48 16)) { s := s, status := 0, stopped := false }
    (k.s, k.status)

/-- The addresses that a command which runs whole accesses, and what it needs of them. -/
def wholeAddrs (c : MatrixCmd) : List Nat × Need :=
  match c.kind with
  | .acld => (loadAddrs c, .read)
  | .acst => (loadAddrs c, .write)
  | .accvt => ((List.range 16).flatMap (rowAddrs c (field c.ctl 48 16) (2 * formatBits (field c.ctl 15 5))), .write)
  | _ => ([], .none)

/-- The effect of a command that runs whole. -/
def runWhole (s : State) (c : MatrixCmd) (d : Nat) : State × BitVec 16 :=
  let lines := remoteLines s (resolvePrefix s d c (wholeAddrs c).2 (wholeAddrs c).1).1
  let r := match c.kind with
    | .acld => loadTile s c d
    | .acst => storeTile s c d
    | .acz => (replaceTile s c.fin.level c.tile (List.replicate 256 0), 0)
    | .accvt => convertTile s c d
    | _ => (s, 0)
  (dropLines (engineTouch r.1 c.fin.part (wholeAddrs c).1) lines, r.2)

/-- Lines of other devices that a command which runs whole accesses and that are not at hand. -/
def wholeMissing (s : State) (c : MatrixCmd) : List FarLine :=
  missingLines s (resolvePrefix s s.own.draws c (wholeAddrs c).2 (wholeAddrs c).1).1

/-- The draw that the operand fetches of a step use. -/
def stepDraw (s : State) : Nat × State := (s.own.draws, { s with own := { s.own with draws := s.own.draws + 1 } })

/-! ## The order of service (R293) -/

/-- The commands of q0 that the engine accepts (R229, R246). -/
def acceptable (s : State) : List MatrixCmd := s.eng.q0.filter fun c => accepts s 2 c.fin

/-- A suspended operation that can go on: neither faulted nor past its last computing cycle (R293, R341). -/
def MatrixOp.ready (m : MatrixOp) : Bool := m.fault.isNone && !m.finished

/-- The highest level at which an operation could run: suspended operations and queued commands of
levels without a faulted one. -/
def bestLevel (s : State) : Option Nat :=
  let held := (s.eng.waiting.filter fun m => m.fault.isSome).map (·.cmd.fin.level)
  let levels := ((s.eng.waiting.filter (·.ready)).map (·.cmd.fin.level)) ++ (acceptable s).map (·.fin.level)
  (levels.filter fun l => !(held.contains l)).max?

/-- Replace the running operation. -/
def setRunning (s : State) (m : Option MatrixOp) : State := { s with eng := { s.eng with running := m } }

/-- The running operation leaves the engine and is held by it (R293). -/
def setAside (s : State) (m : MatrixOp) : State := { s with eng := { s.eng with running := none, waiting := s.eng.waiting ++ [m] } }

/-- A command that runs whole makes its accesses as it starts, or at its completion, by a free choice: a load of the bytes
that it writes sees the old or the new ones until it completes (R227). [log 26: DESIGN CHOICE] -/
def startWhole (s : State) (m : MatrixOp) : State :=
  if m.cmd.isProduct then s
  else
    let d := draw s 2
    if d.1 = 0 || !(wholeMissing d.2 m.cmd).isEmpty then d.2
    else
      let e := stepDraw d.2
      let r := runWhole e.2 m.cmd e.1
      if replayInOrder e.2 r.1 then setRunning r.1 (some { m with status := r.2, finished := true }) else d.2

/-- The highest level's operation resumes or starts (R293). -/
def startBest (s : State) : State :=
  match bestLevel s with
  | none => s
  | some l =>
    match s.eng.waiting.find? fun m => m.ready && decide (m.cmd.fin.level = l) with
    | some m =>
      let s := setRunning { s with eng := { s.eng with waiting := s.eng.waiting.erase m } } (some m)
      commandEvent s m.cmd.fin 4 1 m.cmd.tile
    | none =>
      match (acceptable s).find? fun c => decide (c.fin.level = l) with
      | none => s
      | some c =>
        let s := { s with eng := { s.eng with q0 := s.eng.q0.erase c } }
        let bad := c.isProduct && productInStash s c
        let m : MatrixOp := { cmd := c, chunk := 0, status := if bad then 5 else 0, fault := none, trapPending := false, finished := bad }
        let s := if bad then setAside s m else setRunning s (some m)
        startWhole (commandEvent (commandEvent s c.fin 1 1 c.tile) c.fin 2 1 c.tile) m

/-- MATRIX_COMMAND_START (R293). -/
def matrixStarts (s : State) : State :=
  if s.eng.running.isSome || enginesHeld s || enginesFrozen s then s else startBest s

/-- The boundary after a chunk (R293): a higher level present takes the engine, and a pending switch
suspends the operation (R362). After its last chunk the operation leaves the engine, which the next one may
take before this one's completion (R292, R341). -/
def atBoundary (s : State) (m : MatrixOp) : State :=
  if m.finished then setAside s m
  else if enginesHeld s || (bestLevel s).any fun l => decide (m.cmd.fin.level < l) then commandEvent (setAside s m) m.cmd.fin 3 1 m.cmd.tile
  else setRunning s (some m)

/-- A fetched chunk is added, or ends the operation with POISON (R293, R294). -/
def takeChunk (s : State) (m : MatrixOp) (g : Gathered) : State :=
  let c := m.cmd
  let lo := m.chunk * c.chunkSize
  let hi := lo + c.chunkSize
  let status := if m.status &&& 0xFF = 0 then m.status ||| g.cause else m.status
  if g.poison then setAside s { m with status := addCause status 6, finished := true }
  else
    let r := addChunk s c g lo hi
    let s := countEvent r.1 0xA 1
    atBoundary s { m with chunk := m.chunk + 1, status := status ||| r.2, finished := decide (c.chunks ≤ m.chunk + 1) }

/-- The addresses that the next chunk of a product reads. -/
def chunkAddrs (m : MatrixOp) : List Nat :=
  (productRuns m.cmd (m.chunk * m.cmd.chunkSize) ((m.chunk + 1) * m.cmd.chunkSize)).flatMap fun r => (List.range r.n).map (r.addr + ·)

/-- MATRIX_CHUNK (R293). [log 26: DESIGN CHOICE] -/
def chunkStep (s : State) : State :=
  match s.eng.running with
  | none => s
  | some m =>
    if m.finished || !m.cmd.isProduct then s
    else
      let d := stepDraw s
      match fetchProduct d.2 d.1 m.cmd (m.chunk * m.cmd.chunkSize) ((m.chunk + 1) * m.cmd.chunkSize) with
      | .fault _ => s
      | .ok g =>
        if g.lines.isEmpty then
          let s := engineTouch (dropLines d.2 g.used.eraseDups) m.cmd.fin.part (chunkAddrs m)
          takeChunk (watchReads s 2 g.places) m g
        else requestOnce s g.lines

/-- MATRIX_FETCH_FAULT (R293, R294): the operation is faulted and its trap waits for the core. -/
def faultStep (s : State) : State :=
  match s.eng.running with
  | none => s
  | some m =>
    if m.finished || !m.cmd.isProduct then s
    else
      let d := stepDraw s
      match fetchProduct d.2 d.1 m.cmd (m.chunk * m.cmd.chunkSize) ((m.chunk + 1) * m.cmd.chunkSize) with
      | .ok _ => s
      | .fault f => setAside (engineTouch d.2 m.cmd.fin.part [f.addr.toNat]) { m with fault := some f, trapPending := true }

/-- The operation ends (R273). -/
def endOp (s : State) (m : MatrixOp) (status : BitVec 16) : State := completeOp s m.cmd.fin 1 m.cmd.tile status 0

/-- The running command that runs whole completes, and is performed first when it was not as it started (R326, R330,
R332); in replay its writes wait for their turn at the home slices (R390). -/
def wholeCompletes (s : State) : State :=
  match s.eng.running with
  | none => s
  | some m =>
    if m.cmd.isProduct then s
    else if m.finished then endOp (setRunning s none) m m.status
    else
      let miss := wholeMissing s m.cmd
      if !miss.isEmpty then requestOnce s miss
      else
        let d := stepDraw s
        let r := runWhole d.2 m.cmd d.1
        if replayInOrder s r.1 then endOp (setRunning r.1 none) m r.2 else s

/-- MATRIX_COMPLETE (R273, R293): the earliest operation that is past its last chunk or that TRET aborted, or the
running command that runs whole. Which of them completes first is free. [log 26: DESIGN CHOICE] -/
def matrixCompletes (s : State) : State :=
  match s.eng.waiting.find? fun m => m.finished && m.fault.isNone with
  | none => wholeCompletes s
  | some m =>
    let ends := fun (s : State) => endOp { s with eng := { s.eng with waiting := s.eng.waiting.erase m } } m m.status
    if s.eng.running.any fun r => !r.cmd.isProduct then
      let d := draw s 2
      if d.1 = 0 then ends d.2 else wholeCompletes d.2
    else ends s

/-- MATRIX_COMMAND_START. -/
def execMatrixCommandStart (s : State) : Host.Outcome State Fault Refusal := .next (matrixStarts s)

/-- MATRIX_CHUNK. -/
def execMatrixChunk (s : State) : Host.Outcome State Fault Refusal := .next (if enginesFrozen s || s.cpu.away then s else chunkStep s)

/-- MATRIX_FETCH_FAULT. -/
def execMatrixFetchFault (s : State) : Host.Outcome State Fault Refusal := .next (if enginesFrozen s || s.cpu.away then s else faultStep s)

/-- MATRIX_COMPLETE. -/
def execMatrixComplete (s : State) : Host.Outcome State Fault Refusal := .next (if enginesFrozen s || s.cpu.away then s else matrixCompletes s)

/-! ## The MFETCH trap (R294, R348) -/

/-- MFAULT (R294). -/
def mfaultWord (m : MatrixOp) (f : FetchFault) : Word :=
  at_ 58 m.cmd.fin.level ||| at_ 56 m.cmd.tile ||| at_ 54 f.opnd.toNat ||| at_ 48 f.kind.toNat ||| at_ 0 (m.chunk % 64)

/-- A pending MFETCH is taken at an instruction boundary, above whatever frame runs or on an idle core;
while a trap frame runs or the core is parked or halted it waits (R294). -/
def takeMfetch (s : State) : State :=
  if s.cpu.trap.isSome || s.cpu.parked.isSome || s.cpu.halted || s.cpu.away || s.cpu.poweredOff then s
  else
    match pendingMfetch s with
    | none => s
    | some m =>
      match m.fault with
      | none => s
      | some f =>
        let taken := { m with trapPending := false }
        let s := { s with
          eng := { s.eng with waiting := s.eng.waiting.map fun x => if x = m then taken else x }
          cpu := { s.cpu with mfault := mfaultWord m f, mfpc := m.cmd.pc, xfstat := f.xfstat.getD s.cpu.xfstat } }
        takeTrapAt s causeMfetch (readPc s) f.addr (isIdle s) (some m.cmd.fin.level)

/-- MFETCH (R294, R348). -/
def execMfetch (s : State) : Host.Outcome State Fault Refusal := .next (takeMfetch { s with own := { s.own with turn := .core } })

end Sys2Proof.Machine
end

