-- ==== Sys2Proof/Machine/Inbound.lean ====
section
/-! DEFINITION. What reaches the core from outside itself, and what leaves its queue q3: messages,
spawns, decrements, the late rings of partitions that are not resident, and the barrier network
(R13, R140, R151, R153 to R155, R174, R177, R363). -/

namespace Sys2Proof.Machine

/-! ## Messages (R140, R153) -/

/-- A refused spawn of another core goes back (R153). -/
def refuseSpawn (s : State) (m : Message) (part : BitVec 6) : State :=
  let b := bounced s m s.cpu.coreId
  sendPacket s (messagePacket s (BitVec.ofNat 18 (field m.hdr1 0 18)) b 0 (corePort s.cpu.coreId) part false) []

/-- An entry of q3 for a core has been placed, applied or refused there (R13). -/
def entryPlaced (s : State) (target : BitVec 18) : State := { s with cpu := { s.cpu with q3Out := s.cpu.q3Out.erase target } }

/-- The own core's spawn reaches the own port (R153). -/
def ownMessage (s : State) (m : Message) (spawn : Bool) : State :=
  if spawn && decide (freeGeneral s = 0) then placeBounce s (bounced s m s.cpu.coreId) else placeMessage s m true

/-- A message reaches the core's port from outside, one of its own too that a flow class has led through the
switch (R139, R140, R153, R363, R364). [log 38: DESIGN CHOICE; 72: DESIGN CHOICE] -/
def messageArrives (s : State) (m : Message) (spawn : Bool) (part : BitVec 6) : State :=
  let mine := decide (field m.hdr1 0 18 = s.cpu.coreId.toNat) && s.cpu.q3Out.contains s.cpu.coreId
  let s := if mine then entryPlaced s s.cpu.coreId else s
  if s.cpu.poweredOff then s
  else if !isResident s part then arriveLate s part (messageBytes m)
  else if spawn && decide (freeGeneral s = 0) && decide (hdrLevel m.hdr0 ≤ 23) then (if mine then ownMessage s m true else refuseSpawn s m part)
  else if s.cpu.lateRing.isSome then holdLate s part (messageBytes m)
  else if bit m.hdr0 54 then placeBounce s m
  else placeMessage s m mine

/-- The packets of this device that are on their way: in the queues of the crossbar and of the switch, for a kernel,
and with a kernel. -/
def travelling (s : State) : List Packet :=
  (s.fab.outputs.flatMap fun o => o.2.map (·.packet))
    ++ (s.fab.waiting.filterMap fun w => match w with
      | .packet p _ => some p
      | .timeout _ => none)
    ++ s.fab.sedge.filterMap fun x => x.2.bind (·.packet)

/-- A message of this core for the same core and of the same traffic class is on another way to it (R165). -/
def overtakes (s : State) (p : Packet) : Bool :=
  let ahead := fun (q : Packet) => decide (q.kind = 1) && decide (q.sport = p.sport) && decide (q.sdev = p.sdev) && decide (q.ddev = p.ddev)
    && decide (q.dport = p.dport) && decide (q.vc = p.vc) && decide (q.flow ≠ 0)
  let handed := fun (a : Act) => match a with
    | .message m _ _ => decide (p.dport = p.sport) && decide (p.ddev = p.sdev) && decide (field m.hdr1 0 18 = s.cpu.coreId.toNat) && decide (field m.hdr0 56 2 = p.vc.toNat)
    | _ => false
  decide (p.kind = 1) && decide (p.ddev.toNat = ownDev s) && decide (classify s p = 0) && ((travelling s).any ahead || s.own.agenda.any handed)

/-- An entry of q3 for another port leaves as a packet, and counts until it has been placed (R13). [log 92: DESIGN CHOICE] -/
def entryLeaves (s : State) (target : BitVec 18) (p : Packet) : State :=
  let t := sendPacket s p []
  if reachable s (idDev target) then { t with cpu := { t.cpu with q3Out := t.cpu.q3Out ++ [target] } } else t

/-- The packet of a q3 entry. -/
def entryPacket (s : State) (e : Outbound) : BitVec 18 × Packet :=
  let port := corePort s.cpu.coreId
  match e with
  | .message t m spawn => (t, messagePacket s t m (field m.hdr0 56 2) port (partOf s) spawn)
  | .decrement t n status =>
    (t, { ddev := BitVec.ofNat 8 (idDev t), dport := corePort t, sport := port, part := partOf s, vc := 3, kind := 2, sdev := BitVec.ofNat 8 (ownDev s), flow := 0, pa := 0, body := toBytes 2 status.toNat ++ toBytes 2 n.toNat })
  | .park t r => (t, messagePacket s t (parkMessage s r) 3 port (partOf s) false)

/-- The next entry of q3 leaves (R13, R165, R229, R360): to the own port, or as a packet. [log 35: DESIGN CHOICE] -/
def queueLeaves (s : State) : State :=
  match s.cpu.q3 with
  | [] => s
  | e :: rest =>
    let x := entryPacket s e
    let here := decide (x.1 = s.cpu.coreId) && decide (classify s x.2 = 0)
    if isHeld s || switchPending s || s.cpu.away || s.cpu.poweredOff || overtakes s x.2 || (here && s.cpu.lateRing.isSome) then s
    else
      let s := { s with cpu := { s.cpu with q3 := rest } }
      match e with
      | .message t m spawn => if here then ownMessage s m spawn else entryLeaves s t x.2
      | .decrement t n status => if here then decrement s n.toNat status 0 else entryLeaves s t x.2
      | .park t _ => entryLeaves s t x.2

/-- MSG (R140). -/
def execMsg (src : MsgSource) (s : State) : Host.Outcome State Fault Refusal :=
  .next (unlessMinimal s (match src with
    | .own => queueLeaves s
    | .other m spawn part => messageArrives s m spawn part))

/-- INBOX_WRITE_WAITING (R140): a waiting message takes a slot of its kind that is free. -/
def execInboxWriteWaiting (s : State) : Host.Outcome State Fault Refusal := .next (admitWaiting s)

/-- RDEC (R151, R363). -/
def execRdec (d : Decrement) (s : State) : Host.Outcome State Fault Refusal :=
  .next (unlessMinimal s (if s.cpu.poweredOff then s
    else if actsNow s d.part then decrement s d.n.toNat d.status 0
    else waitsLate s d.part (lateDecrement d.n d.status)))

/-- The core has a monitor entry of a word with a counter. -/
def hasEntry (s : State) (d : MonitorDecrement) : Bool :=
  (List.range 16).any fun i => decide (s.cpu.monitors.get i = some { line := d.line, word := d.word, n := d.n })

/-- MDEC (R268, R363): a decrement that one of this device's slices has sent arrives, or one of another
device's slices, for an entry of the core that watches a line there; that of a partition that is not resident goes
to its late ring. -/
def mdecArrives (s : State) (d : MonitorDecrement) (status : BitVec 16) : State :=
  let act := fun (s : State) => if actsNow s d.part then applyMonitor s d status else waitsLate s d.part (lateMonitor d status)
  if s.cpu.poweredOff then s
  else if isHome s d.line then
    let f : Firing := { core := s.cpu.coreId, line := d.line, word := d.word, part := d.part, n := d.n, status := status }
    if s.mem.firings.contains f && mayFire s f then act { s with mem := { s.mem with firings := s.mem.firings.erase f } } else s
  else if isResident s d.part && !hasEntry s d then s
  else act s

/-- MDEC (R268). -/
def execMdec (d : MonitorDecrement) (status : BitVec 16) (s : State) : Host.Outcome State Fault Refusal := .next (mdecArrives s d status)

/-- The queue has space for a further entry (R13). -/
def queueHasSpace (s : State) (q : BitVec 2) : Bool :=
  match q with
  | 0 => decide (s.eng.q0.length < 16)
  | 1 => decide (s.eng.q1.length < 16)
  | 2 => decide (s.eng.q2.length < 8)
  | 3 => decide (q3Used s < 8)

/-- QUEUE_WRITE_RESUME (R13): an instruction that waits for space may begin. A write of q3 may find space because the
port of an entry's target has placed it. -/
def execQueueWriteResume (q : BitVec 2) (s : State) : Host.Outcome State Fault Refusal :=
  let s := if q = 3 then { s with cpu := { s.cpu with q3Out := s.cpu.q3Out.drop 1 } } else s
  .next (if queueHasSpace s q then { s with own := { s.own with stalled := false } } else s)

/-- Another core of the cluster places its stash (R203, R206): what the old region held is not known, nor what the new one holds (R205). -/
def otherStash (s : State) (c : Nat) (v : Word) : State :=
  let x := BitVec.ofNat 8 (field v 0 8)
  if decide (8 < field v 0 4) || decide (16 < field v 4 4 + field v 0 4) || (decide (field v 0 4 ≠ 0) && decide (field v 4 4 = 0)) || decide (s.mem.stashcfgs.get c = x) then s
  else
    let s := forget s (stashSpanOf s c).1 (stashSpanOf s c).2 false
    occupyRegion { s with mem := { s.mem with stashcfgs := s.mem.stashcfgs.set c x } } c

/-- STASHCFG_WRITE (R203) of a core of the cluster: a legal value that differs places its stash anew. -/
def execStashcfgWrite (w : StashPlace) (s : State) : Host.Outcome State Fault Refusal :=
  .next (if w.core.toNat ≠ coreIndex s.cpu.coreId then otherStash s w.core.toNat w.value
    else if csrRefused s 0x047 w.value then s else placeStash s w.value)

/-! ## The barrier network (R155, R174, R177) -/

/-- The root's record of a barrier. -/
def rootOf (s : State) (n : BitVec 5) : Root := s.net.roots.get n.toNat

/-- Replace the root's record. -/
def setRoot (s : State) (n : BitVec 5) (r : Root) : State := { s with net := { s.net with roots := s.net.roots.set n.toNat r } }

/-- The root's record after a BARI (R155). -/
def freshRoot (r : Root) (count : BitVec 12) : Root := { active := true, expect := count.toNat, epoch := r.epoch + 1 }

/-- An operation of this core follows its own BARI of the barrier (R174, R177). -/
def renumbered (n : BitVec 5) (e : Nat) (o : BarrierOp) : BarrierOp :=
  match o with
  | .bari m c => .bari m c
  | .arrive m c k => .arrive m c (if m = n then e else k)
  | .drop m k => .drop m (if m = n then e else k)
  | .join m k => .join m (if m = n then e else k)

/-- A BARI reaches the root: of this core, or of another, which then goes on to this core. -/
def rootBari (s : State) (own : Bool) (n : BitVec 5) (count : BitVec 12) : State :=
  let r := freshRoot (rootOf s n) count
  let s := setRoot s n r
  if own then
    let s := { s with net := { s.net with out := s.net.out.map (renumbered n r.epoch) } }
    setBarrier s n { barrier s n with epoch := r.epoch }
  else { s with net := { s.net with baris := s.net.baris ++ [(n, count, r.epoch)] } }

/-- ARRIVED as the network reports it, unless a BARI or a flip of the barrier is on its way. [log 31: DESIGN CHOICE] -/
def reportArrived (s : State) (n : BitVec 5) : State :=
  let b := barrier s n
  let r := rootOf s n
  if s.cpu.member && decide (b.epoch = r.epoch) && !(s.net.flips.any fun f => decide (f.n = n)) then setBarrier s n { b with arrived := BitVec.ofNat 12 r.arrived }
  else s

/-- The root flips when the arrivals reach EXPECT, a field of 12 bits, and applies the requests it has (R8, R155). [log 31: DESIGN CHOICE] -/
def rootFlip (s : State) (n : BitVec 5) : State :=
  let r := rootOf s n
  if r.active && decide (r.arrived = r.expect) then
    let e := (r.expect + r.joins + 4095 * r.drops) % 4096
    let s := { s with net := { s.net with flips := s.net.flips ++ [{ n := n, expect := BitVec.ofNat 12 e, joined := r.ownJoin, dropped := r.ownDrop, epoch := r.epoch }] } }
    setRoot s n { active := decide (e ≠ 0), expect := e, phase := r.phase + 1, epoch := r.epoch }
  else reportArrived s n

/-- An operation reaches the root (R155, R177): a BARI, an arrival, which counts with the phase's EXPECT as its count
word and not twice in a phase, or a request; a request from before a BARI is no longer the register's own. [log 31: DESIGN CHOICE] -/
def rootTakes (s : State) (own : Bool) (o : BarrierOp) : State :=
  match o with
  | .bari n count => rootBari s own n count
  | .arrive n count e =>
    let r := rootOf s n
    if r.active && decide (e = r.epoch) && decide (count.toNat = r.expect) && !(own && r.ownArrived) then
      rootFlip (setRoot s n { r with arrived := r.arrived + 1, ownArrived := own || r.ownArrived }) n
    else s
  | .drop n e =>
    let r := rootOf s n
    if r.active then setRoot s n { r with drops := r.drops + 1, ownDrop := (own && decide (e = r.epoch)) || r.ownDrop } else s
  | .join n e =>
    let r := rootOf s n
    if r.active then setRoot s n { r with joins := r.joins + 1, ownJoin := (own && decide (e = r.epoch)) || r.ownJoin } else s

/-- A BARI of this core for the barrier is on its way to the root. -/
def bariPending (s : State) (n : BitVec 5) : Bool :=
  s.net.out.any fun o => match o with
    | .bari m _ => decide (m = n)
    | _ => false

/-- BARRIER_OPERATION_AT_ROOT (R177): the core's operations leave in order, once its release has been
acknowledged (R229). -/
def execBarrierOperationAtRoot (o : BarrierSource) (s : State) : Host.Outcome State Fault Refusal :=
  .next (match o with
    | .other op => rootTakes s false op
    | .own =>
      match s.net.out with
      | [] => s
      | op :: rest => if isHeld s then s else rootTakes { s with net := { s.net with out := rest } } true op)

/-- The core's register takes a flip (R155): its pending request is applied when the flip carries it. [log 31: DESIGN CHOICE] -/
def applyFlip (s : State) (f : Flip) : State :=
  let b := barrier s f.n
  let applied := (decide (b.pend = 1) && f.joined) || (decide (b.pend = 2) && f.dropped)
  let c : Barrier := { b with
    active := decide (f.expect ≠ 0), phase := b.phase + 1, expect := f.expect, arrived := 0, arr := false, arm := false,
    reg := if applied then decide (b.pend = 1) else b.reg,
    pend := if applied then 0 else b.pend }
  let s := setBarrier s f.n c
  let s := if b.arm then decrement s b.succ.toNat 0 0 else s
  reportArrived s f.n

/-- BARRIER_FLIP (R155, R177): the next flip of the barrier reaches the core; a flip from before the
core's last BARI has no effect, and one that follows a BARI on its way waits for it. -/
def execBarrierFlip (n : BitVec 5) (s : State) : Host.Outcome State Fault Refusal :=
  .next (match s.net.flips.find? fun f => decide (f.n = n) with
    | none => s
    | some f =>
      let taken := { s with net := { s.net with flips := s.net.flips.erase f } }
      if !s.cpu.member || bariPending s n || decide (f.epoch < (barrier s n).epoch) then taken
      else if f.epoch = (barrier s n).epoch then applyFlip taken f
      else s)

/-- BARI_REACHES_CORE (R174, R177): a BARI of another core resets the core's register and releases its
armed successor with CANCELLED. -/
def execBariReachesCore (n : BitVec 5) (count : BitVec 12) (s : State) : Host.Outcome State Fault Refusal :=
  .next (match s.net.baris.find? fun b => decide (b.1 = n) && decide (b.2.1 = count) with
    | none => s
    | some b =>
      let s := { s with net := { s.net with baris := s.net.baris.erase b } }
      let own := barrier s n
      if !s.cpu.member || bariPending s n || decide (b.2.2 < own.epoch) then s
      else
        let s := resetBarrier s n count
        setBarrier s n { barrier s n with epoch := b.2.2 })

end Sys2Proof.Machine
end

