-- ==== Sys2Proof/Machine/Live.lean ====
section
/-! DEFINITION. The doublewords of a core's context that R365 places without a layout: frame records, the
control part of the engine and queue state, and the inbox image (R362, R365, R374). The layouts are the
model's. -/

namespace Sys2Proof.Machine

/-! ## Write masks of registers with reserved bits (R7) -/

/-- PRECTn (R14, R357). -/
def precMask : Word := at_ 63 1 ||| 0x0FF0FFFFF
/-- SC0 to SC3 (R14). -/
def scMask : Word := 0x1FF0FFFFF
/-- FPCTL (R31). -/
def fpctlMask : Word := 0x3E7
/-- MSGINFO (R148). -/
def msgInfoMask : Word := 0xFFFFFFFF3F03FFFF

/-! ## Frame records (R144, R365) -/

/-- The eight doublewords of a frame's record, 64 bytes (R365). [log 33: DESIGN CHOICE] -/
def frameWords (f : Frame) : List Word :=
  [f.entry, f.pc, f.msgInfo, f.taskId,
    at_ 0 f.level ||| at_ 5 f.thr ||| at_ 10 f.claimBase ||| at_ 15 f.wcode.toNat ||| at_ 17 (bnat f.vec) ||| at_ 18 (bnat f.mat)
      ||| at_ 19 f.sptOff.toNat ||| at_ 44 f.spillSlot,
    f.arrival, f.dispatched, f.run]

/-- A frame with the fields of its record; its level is the one it has. [log 33: DESIGN CHOICE] -/
def withFrameWords (f : Frame) (w : List Word) : Frame :=
  let p := w.getD 4 0
  { f with
    entry := w.getD 0 0, pc := w.getD 1 0 &&& ~~~ 1, msgInfo := w.getD 2 0 &&& msgInfoMask, taskId := w.getD 3 0,
    thr := min 23 (field p 5 5), claimBase := field p 10 5, wcode := BitVec.ofNat 2 (field p 15 2), vec := bit p 17, mat := bit p 18,
    sptOff := BitVec.ofNat 24 (field p 19 24), spillSlot := field p 44 20 / 8 * 8,
    arrival := w.getD 5 0, dispatched := w.getD 6 0, run := w.getD 7 0 }

/-- The record of the trap frame (R345, R365). [log 33: DESIGN CHOICE] -/
def trapWords (t : TrapFrame) : List Word :=
  [t.pc, at_ 0 t.keptMode.toNat ||| at_ 2 (bnat t.onIdle) ||| at_ 3 (bnat t.operation.isSome) ||| at_ 4 (t.operation.getD 0), 0, 0, 0, 0, 0, 0]

/-- A trap frame with the fields of its record. [log 33: DESIGN CHOICE] -/
def withTrapWords (t : TrapFrame) (w : List Word) : TrapFrame :=
  let p := w.getD 1 0
  { t with pc := w.getD 0 0 &&& ~~~ 1, keptMode := BitVec.ofNat 2 (field p 0 2), onIdle := bit p 2, operation := if bit p 3 then some (min 23 (field p 4 5)) else none }

/-! ## The control part of the engine and queue state (R362) -/

/-- A claim of the stack (R149). -/
def claimWord (c : Option (Nat × Nat)) : Word :=
  match c with
  | some (old, res) => at_ 63 1 ||| at_ 8 old ||| at_ 0 res
  | none => 0

/-- The claim that a doubleword holds. -/
def claimOf (w : Word) : Option (Nat × Nat) := if bit w 63 then some (min 23 (field w 8 5), field w 0 6) else none

/-- The second doubleword of an arm slot (R171). -/
def armWord (a : Option Arm) : Word := (a.map fun a => at_ 63 1 ||| at_ 12 (bnat a.all) ||| at_ 0 a.n.toNat).getD 0

/-- A monitor entry (R267): its line in one doubleword, the rest in the next. -/
def monitorWords (m : Option Monitor) : Word × Word :=
  match m with
  | some m => (at_ 37 m.line.dev.toNat ||| zextField m.line.line, at_ 63 1 ||| at_ 12 m.word.toNat ||| at_ 0 m.n.toNat)
  | none => (0, 0)

/-- The monitor entry that two doublewords hold. -/
def monitorOf (a b : Word) : Option Monitor :=
  if bit b 63 then some { line := { dev := BitVec.ofNat 8 (field a 37 8), line := BitVec.ofNat 37 (field a 0 37) }, word := BitVec.ofNat 4 (field b 12 4), n := BitVec.ofNat 12 (field b 0 12) } else none

/-- The barrier register that BARQ's layout gives (R154). -/
def barrierFrom (b : Barrier) (w : Word) : Barrier :=
  { b with
    active := bit w 62, reg := bit w 61, arr := bit w 60, arm := bit w 59, pend := BitVec.ofNat 2 (field w 57 2), succ := BitVec.ofNat 12 (field w 44 12),
    phase := BitVec.ofNat 16 (field w 28 16), expect := BitVec.ofNat 12 (field w 16 12), arrived := BitVec.ofNat 12 (field w 4 12) }

/-- The supervisor and status registers of the control part, in their order. -/
def controlRegs (c : Core) : List Word :=
  [c.tags, c.trapCause, c.trapPc, c.trapVal, at_ 1 (bnat c.dcLost) ||| at_ 0 (bnat c.badMsg), c.scrcfg, c.dcbase, c.dacbase, c.vflane, c.xroot, c.xfstat,
    c.raceinfo, c.engstat, c.mfault, c.mfpc, c.tvec, c.tscr, c.cntcfg, c.pcscfg, c.pcsbase, c.pcsidx, c.evbase, c.evcfg, c.evidx]

/-- A register of the control part is written; reserved bits stay zero (R7). -/
def setControlReg (c : Core) (i : Nat) (v : Word) : Core :=
  match i with
  | 0 => { c with tags := v }
  | 1 => { c with trapCause := v &&& 0xFF }
  | 2 => { c with trapPc := v }
  | 3 => { c with trapVal := v }
  | 4 => { c with badMsg := bit v 0, dcLost := bit v 1 }
  | 5 => { c with scrcfg := v &&& 0xFF00F }
  | 6 => { c with dcbase := v &&& 0xFE000 }
  | 7 => { c with dacbase := v &&& 0xF8001 }
  | 8 => { c with vflane := v &&& 0x3F }
  | 9 => { c with xroot := v &&& 0xFFFFFFF0001 }
  | 10 => { c with xfstat := v &&& 0xFC }
  | 11 => { c with raceinfo := v &&& 0x10003FFFF }
  | 12 => { c with engstat := v &&& 0xFFFFFF0000000001 }
  | 13 => { c with mfault := v &&& 0xFFC300000000003F }
  | 14 => { c with mfpc := v }
  | 15 => { c with tvec := v &&& 0xFFFFFFFFFFF9 }
  | 16 => { c with tscr := v }
  | 17 => { c with cntcfg := v &&& 0x1FFFFFFFFFF }
  | 18 => { c with pcscfg := v &&& 0x3F }
  | 19 => { c with pcsbase := v &&& 0x7FFFFFFFFF000F }
  | 20 => { c with pcsidx := v }
  | 21 => { c with evbase := v &&& 0x7FFFFFFFFF000F }
  | 22 => { c with evcfg := v &&& 0xF }
  | _ => { c with evidx := v }

/-- The doublewords of the control part. -/
def controlCount : Nat := 192

/-- Doubleword i of the control part (R362): the registers, CNT0 to CNT7, CEIL0 to CEIL63, the claim stack from its
bottom, the arm slots, the barrier registers and the monitor entries. [log 33: DESIGN CHOICE] -/
def controlWord (c : Core) (i : Nat) : Word :=
  if i < 24 then (controlRegs c).getD i 0
  else if i < 32 then c.cnt.get (i - 24)
  else if i < 96 then c.ceil.get (i - 32)
  else if i < 112 then claimWord (c.claims.reverse[i - 96]?)
  else if i < 128 then (if i % 2 = 0 then ((c.arms.get ((i - 112) / 2)).map (·.mask)).getD 0 else armWord (c.arms.get ((i - 112) / 2)))
  else if i < 160 then barrierWord (c.bar.get (i - 128))
  else if i % 2 = 0 then (monitorWords (c.monitors.get ((i - 160) / 2))).1
  else (monitorWords (c.monitors.get ((i - 160) / 2))).2

/-- Doubleword i of the control part is written. [log 33: DESIGN CHOICE] -/
def setControl (c : Core) (i : Nat) (v : Word) : Core :=
  if i < 24 then setControlReg c i v
  else if i < 32 then { c with cnt := c.cnt.set (i - 24) v }
  else if i < 96 then { c with ceil := c.ceil.set (i - 32) (v &&& 0x9F) }
  else if i < 112 then
    let all := (List.range 16).map fun n => if n = i - 96 then claimOf v else c.claims.reverse[n]?
    { c with claims := (all.filterMap id).reverse }
  else if i < 128 then
    let n := (i - 112) / 2
    let mask := ((c.arms.get n).map (·.mask)).getD 0
    let arm := if i % 2 = 0 then (c.arms.get n).map (fun a => { a with mask := v })
      else if bit v 63 then some { mask := mask, all := bit v 12, n := BitVec.ofNat 12 (field v 0 12) } else none
    { c with arms := c.arms.set n arm }
  else if i < 160 then { c with bar := c.bar.set (i - 128) (barrierFrom (c.bar.get (i - 128)) v) }
  else
    let n := (i - 160) / 2
    let w := monitorWords (c.monitors.get n)
    { c with monitors := c.monitors.set n (if i % 2 = 0 then monitorOf v w.2 else monitorOf w.1 v) }

/-! ## The inbox image -/

/-- The messages in the inbox, by level and then in order. -/
def inboxMessages (c : Core) : List Message :=
  (List.range 24).flatMap fun p => (c.queues.get p).filterMap fun e => match e with
    | .message m _ _ => some m
    | .release _ _ _ _ => none

/-- The messages of one queue replaced, in order, by those of a list; what the list has left. -/
def replaceMessages : List Message → List Entry → List Entry × List Message
  | ms, [] => ([], ms)
  | [], es => (es, [])
  | m :: ms, .message _ r a :: es => let x := replaceMessages ms es; (.message m r a :: x.1, x.2)
  | ms, e :: es => let x := replaceMessages ms es; (e :: x.1, x.2)

/-- The inbox with other messages in its slots, each at the level at which it waits. [log 33: DESIGN CHOICE] -/
def withMessages (c : Core) (ms : List Message) : Core :=
  let r := (List.range 24).foldl (fun (x : Table (List Entry) × List Message) p =>
    let y := replaceMessages x.2 (c.queues.get p)
    (x.1.set p y.1, y.2)) (c.queues, ms)
  { c with queues := r.1 }

/-- The 64 bytes of each message of the inbox image: 4 KiB for its 64 slots (R365). [log 33: DESIGN CHOICE] -/
def inboxImage (c : Core) : List Byte :=
  let b := (inboxMessages c).flatMap messageBytes
  b ++ List.replicate (4096 - b.length) 0

/-- The messages of an inbox with the bytes of an image. -/
def imageMessages (c : Core) (get : Nat → List Byte) : List Message :=
  ((inboxMessages c).zip (List.range 64)).map fun x =>
    let n := messageOf (get x.2)
    { n with hdr0 := withField n.hdr0 48 5 (hdrLevel x.1.hdr0) &&& at_ 0 (2 ^ 59 - 1) }

/-- A doubleword of a message is written; its LEVEL stays that of its queue. -/
def setMessageWord (m : Message) (j : Nat) (v : Word) : Message :=
  let b := messageBytes m
  let n := messageOf (b.take (8 * j) ++ toBytes 8 v.toNat ++ b.drop (8 * j + 8))
  { n with hdr0 := withField n.hdr0 48 5 (hdrLevel m.hdr0) &&& at_ 0 (2 ^ 59 - 1) }

end Sys2Proof.Machine
end

