-- ==== Sys2Proof/Machine/Switching.lean ====
section
/-! DEFINITION. Parking, partition switching and the partition instructions: PARK, CTXSV, CTXRS,
TLBINV, the safe point, the context record, its save and its restore, and the gang watchdog (R71,
R100, R355, R356, R359 to R370). -/

namespace Sys2Proof.Machine

/-! ## Parking (R355, R368) -/

/-- PARTERR (R367). -/
def partTrap {α : Type} (s : State) (reason : Nat) (operand : Word) : Acc α := .trap s causeParterr (reasoned reason operand)

/-- PARK of the running core (R368): out of a trap frame, or in a supervisor frame. -/
def parkSelf (i : Instr) (s : State) : Res :=
  if s.cpu.trap.isSome then
    let s := retire (match s.cpu.trap.bind (·.operation) with
      | some lvl => if s.cpu.trapCause = zextField causeMfetch then applyAbort s lvl else s
      | none => s)
    let s := orphanReplies { s with cpu := { s.cpu with trap := none, parkWaits := false } } none
    .done (parkAt (postFault s s.cpu.trapCause s.cpu.trapPc s.cpu.trapVal (faultWord3 s true) (taskIdWord s) (msgInfoWord s)) s.cpu.trapPc)
  else
    let next := npc s i
    let s := retire (setTrapRegs s causeParked next 0)
    .done (parkAt (postFault s s.cpu.trapCause next 0 (faultWord3 s true) (taskIdWord s) (msgInfoWord s)) next)

/-- PARK (R368). -/
def parkBody (a : Reg) (s : State) : Res :=
  let x := readX s a
  let op := field x 62 2
  if op = 3 || decide (field x 18 42 ≠ 0) || (decide (op = 1) && decide (field x 60 2 = 3)) || (decide (op = 0) && decide (field x 0 18 ≠ 0)) then
    (partTrap s 1 x : Acc Unit).run fun s _ => .ok s
  else if op = 0 then parkSelf (.park a) s
  else if 8 ≤ q3Used s then stallFull s
  else if !validTarget s (word (field x 0 18)) then .trap s causeTarget x
  else
    let s := publish s
    let r : ParkRequest := { op := BitVec.ofNat 2 op, how := BitVec.ofNat 2 (field x 60 2), part := partOf s }
    .ok { s with cpu := { s.cpu with q3 := s.cpu.q3 ++ [.park (coreOf x) r] } }

/-- PARK. -/
def execPark (a : Reg) (s : State) : Host.Outcome State Fault Refusal := runInstr (.park a) (parkBody a) s


/-- WATCHDOG. -/
def execWatchdog (s : State) : Host.Outcome State Fault Refusal := .next (watchdogPosts s)

/-! ## Safe points (R71, R100, R361) -/

/-- A byte of code or of its tables, as the core reads it without a trap: of a line of another device once that is
at hand. -/
def codeByte (s : State) (a : Nat) : Byte :=
  if a < 0x100000 then getLocal s (ownKey s a)
  else match walk s (ownContext s) a with
    | .ok l => ownByte s (leafLine l (leafPa l a)) (leafKey l) (leafPa l a % 128)
    | .error _ => 0

/-- Bytes of a handler's tables as a number. -/
def codeField (s : State) (a n : Nat) : Nat := ofBytes ((List.range n).map fun i => codeByte s (a + i))

/-- The save point of an SPT at `pc` of a frame (R361): the table entry whose offset is the SPT's, or a
live save of every register. -/
def livePoint (s : State) (f : Frame) (pc : Nat) : SavePoint :=
  let all : SavePoint := { wholeSave with live := true }
  if f.sptOff = 0 then all
  else
    let t := f.entry.toNat + 8 * f.sptOff.toNat
    let n := codeField s t 4
    match (List.range n).find? fun i => decide (codeField s (t + 8 + 16 * i) 4 = (pc + 2 ^ 64 - f.entry.toNat) % 2 ^ 64) with
    | some i => { live := true, gens := BitVec.ofNat 16 (codeField s (t + 8 + 16 * i + 6) 2), regs := word (codeField s (t + 16 + 16 * i) 8) }
    | none => all

/-- A line of another device that holds a byte of the code's tables and is not at hand, with its page's leaf. -/
def codeGap (s : State) (a : Nat) : Option (LineId × Leaf) :=
  if a < 0x100000 then none
  else match walk s (ownContext s) a with
    | .ok l =>
      let ln := leafLine l (leafPa l a)
      if isHome s ln || (peerLine s ln).isSome || (heldLine s ln .core).isSome || (stashLine s ln).isSome || !reachable s ln.dev.toNat then none else some (ln, l)
    | .error _ => none

/-- The first such line of the table of a frame's handler. -/
def tableGap (s : State) (f : Frame) : Option (LineId × Leaf) :=
  if f.sptOff = 0 then none
  else
    let t := f.entry.toNat + 8 * f.sptOff.toNat
    match codeGap s t with
    | some ln => some ln
    | none => (List.range (8 + 16 * codeField s t 4)).findSome? fun i => codeGap s (t + i)

/-- SPT (R100): outside a pending switch only its completion; else the save point of the top frame. -/
def sptBody (s : State) : Res :=
  match s.cpu.frames with
  | f :: _ =>
    if switchPending s && s.cpu.trap.isNone && s.own.turn = .core then
      match tableGap s f with
      | some (ln, l) => .stall (requestLine s ln (.line (if leafCache l = 0 then .copy else .core)) (leafKey l) (partOf s) false [])
      | none => .ok { s with cpu := { s.cpu with saving := some (livePoint s f (readPc s).toNat) } }
    else .ok s
  | [] => .ok s

/-- SPT. -/
def execSpt (n : BitVec 12) (s : State) : Host.Outcome State Fault Refusal := runInstr (.spt n) sptBody s

/-! ## The context record (R361, R365, R366) -/

/-- The levels whose banks a record holds (R361). -/
def keepsLevel (c : Core) (lvkeep p : Nat) : Bool := decide (lvkeep / 2 ^ p % 2 = 1) || c.frames.any fun f => decide (f.level = p)

/-- Keep the entries of a bank of `n` registers for each level that a test admits. -/
def keepBank {α : Type} (t : Table α) (n : Nat) (keep : Nat → Nat → Bool) : Table α := t.filter fun e => keep (e.1 / n) (e.1 % n)

/-- The core with the registers that a record does not hold cleared: banks of levels without a frame
and without LVKEEP, and what is not live in the top frame. -/
def recordedCore (s : State) (sp : SavePoint) : Core :=
  let c := { s.cpu with frames := s.cpu.frames.map (residentFrame s) }
  let lv := field c.slkeep 16 24
  let top := (c.frames.head?.map (·.level)).getD 24
  let dead := fun p => sp.live && decide (p = top) && decide (lv / 2 ^ top % 2 = 0)
  let bankOf := fun (base p i : Nat) => keepsLevel c lv p && (!(dead p) || bit sp.regs (base + i))
  let frames := match c.frames with
    | f :: fs => (if sp.live then { f with regs := f.regs.filter (fun e => bit sp.regs e.1), poison := f.poison.filter fun p => bit sp.regs p.reg } else f) :: fs
    | [] => []
  { c with
    frames := frames
    v := keepBank c.v 16 (bankOf 32)
    k := keepBank c.k 8 (bankOf 48)
    e := keepBank c.e 4 (bankOf 56)
    tiles := keepBank c.tiles 1024 fun p i => bankOf 60 p (i / 256)
    g := keepBank c.g 8 fun p i => keepsLevel c lv p && (!(dead p) || bit sp.gens i)
    sc := keepBank c.sc 4 fun p i => keepsLevel c lv p && (!(dead p) || bit sp.gens (8 + i))
    fpctl := keepBank c.fpctl 1 fun p _ => keepsLevel c lv p && (!(dead p) || bit sp.gens 12)
    bankPoison := keepBank c.bankPoison 128 fun p i => keepsLevel c lv p && (!(dead p) || (if i < 64 then bit sp.regs i else bit sp.gens (i - 64))) }

/-- The 32 doublewords of a window. -/
def windowBytes (t : Table Word) : List Byte := (List.range 32).flatMap fun i => toBytes 8 (if i = 0 then 0 else (t.get i).toNat)

/-- The bank of a level in a record (R365). -/
def bankBytes (c : Core) (p : Nat) : List Byte :=
  ((List.range 16).flatMap fun i => toBytes 64 (c.v.get (16 * p + i)).toNat)
    ++ ((List.range 8).flatMap fun i => toBytes 8 (c.k.get (8 * p + i)).toNat)
    ++ ((List.range 4).flatMap fun i => toBytes 8 (c.e.get (4 * p + i)).toNat)
    ++ ((List.range 8).flatMap fun i => toBytes 32 (c.g.get (8 * p + i)).toNat)
    ++ ((List.range 4).flatMap fun i => toBytes 8 (c.sc.get (4 * p + i)).toNat)
    ++ toBytes 8 (c.fpctl.get p).toNat
    ++ (List.range 1024).flatMap fun i => toBytes 4 (c.tiles.get (1024 * p + i)).toNat

/-- The header of a record (R366). -/
def recordHeader (s : State) (kind : Nat) : List Byte :=
  toBytes 4 0x43580001 ++ toBytes 1 (partOf s).toNat ++ toBytes 1 kind ++ toBytes 1 (field s.cpu.slcfg 1 3) ++ [0]
    ++ toBytes 4 s.cpu.coreId.toNat ++ toBytes 12 0 ++ toBytes 3 (field s.cpu.slkeep 16 24) ++ [0]
    ++ toBytes 2 (field s.cpu.slkeep 0 16) ++ toBytes 34 0

/-- A byte of a record for which the model has no layout: engine state. [log 33: DESIGN CHOICE] -/
def imageByte (d off : Nat) : Byte := BitVec.ofNat 8 (Config.choiceAt d off)

/-- A run of such bytes. -/
def imageRun (d off n : Nat) : List Byte := (List.range n).map fun i => imageByte d (off + i)

/-- The part of the engine and queue state for which the model has no layout: its offset and length. -/
def imagePart : Nat × Nat := (0x32000 + 8 * controlCount, 0xDFFC - 8 * controlCount)

/-- The engine and queue state, closed by its CRC-32 (R365). [log 33: DESIGN CHOICE] -/
def engineImage (c : Core) (d : Nat) : List Byte :=
  let b := ((List.range controlCount).flatMap fun i => toBytes 8 (controlWord c i).toNat) ++ imageRun d imagePart.1 imagePart.2
  b ++ toBytes 4 (crc32 b).toNat

/-- The frame records, 25 of 64 bytes, lowest frame first, the trap frame's last (R365). -/
def frameRecords (c : Core) : List Byte :=
  let ws := (c.frames.reverse.map frameWords) ++ (c.trap.map trapWords).toList
  let b := (ws.flatMap id).flatMap fun w => toBytes 8 w.toNat
  b ++ List.replicate (1600 - b.length) 0

/-- The parts of a record with their offsets, local memory aside (R365). -/
def recordParts (s : State) (c : Core) (kind d : Nat) : List (Nat × List Byte) :=
  let lv := field c.slkeep 16 24
  [(0, recordHeader s kind), (0x40, frameRecords c), (0x680, windowBytes ((c.trap.map (·.regs)).getD [])), (0x780, toBytes 128 0)]
    ++ (c.frames.reverse.map fun f => (0x800 + 256 * f.level, windowBytes f.regs))
    ++ (((List.range 24).filter fun p => keepsLevel c lv p).map fun p => (0x2000 + 0x2000 * p, bankBytes c p))
    ++ [(0x32000, engineImage c d), (0x40000, inboxImage c)]

/-- The local-memory blocks of a record (R365). -/
def localParts (s : State) : List (Nat × List Byte) :=
  ((List.range 16).filter fun n => bit s.cpu.slkeep n).map fun n => (0x100000 + 0x10000 * n, getLocals s (ownKey s (0x10000 * n)) 0x10000)

/-- Bytes in doublewords with their offsets. -/
def inDwords (p : Nat × List Byte) : List (Nat × List Byte) :=
  (List.range (ceilDiv p.2.length 8)).map fun i => (p.1 + 8 * i, (p.2.drop (8 * i)).take 8)

/-- Where a banked register stands in its level's bank of a record, and its length (R365). -/
def bankPlace (r : Nat) : Nat × Nat :=
  if r < 48 then (64 * (r - 32), 64)
  else if r < 56 then (0x400 + 8 * (r - 48), 8)
  else if r < 60 then (0x440 + 8 * (r - 56), 8)
  else if r < 64 then (0x588 + 1024 * (r - 60), 1024)
  else if r < 72 then (0x460 + 32 * (r - 64), 32)
  else (0x560 + 8 * (r - 72), 8)

/-- Offsets of a record that hold a poisoned register or granule. -/
def poisonOffsets (s : State) (c : Core) : List Nat :=
  (c.frames.flatMap fun f => f.poison.map fun p => 0x800 + 256 * f.level + 8 * p.reg)
    ++ (((c.trap.map (·.poison)).getD []).map fun p => 0x680 + 8 * p.reg)
    ++ (c.bankPoison.map fun p => 0x2000 + 0x2000 * (p.1 / 128) + (bankPlace (p.1 % 128)).1)
    ++ (((List.range 16).filter fun n => bit s.cpu.slkeep n).flatMap fun n =>
      ((List.range 0x2000).filter fun i => localPoison s (ownKey s (0x10000 * n + 8 * i)) 1).map fun i => 0x100000 + 0x10000 * n + 8 * i)

/-- What the record's bytes for which there is no layout stand for. [log 33: DESIGN CHOICE; 75: DEDUCED] -/
def contextOf (s : State) (c : Core) (d : Nat) : Context :=
  { image := d, cpu := { c with ldhsSince := none }, eng := { s.eng with running := none, waiting := s.eng.waiting ++ s.eng.running.toList },
    net := s.net, halted := s.dbg.halted, frozen := s.dbg.frozen,
    identity := (List.range 64).map fun j => constant s (192 + j) }

/-- The kind of a record (R365). -/
def recordKind (s : State) (sp : SavePoint) : Nat :=
  if s.cpu.parked.isSome then 2 else if isIdle s && s.cpu.trap.isNone then 3 else if sp.live then 0 else 1

/-- The core without a resident partition: what stays is no partition's. -/
def awayCore (c : Core) : Core :=
  { Core.reset with
    time := c.time, synced := c.synced, cyc := c.cyc, retired := c.retired, coreId := c.coreId, latePort := c.latePort,
    q3Out := c.q3Out, stale := c.stale, nextId := c.nextId, poweredOff := c.poweredOff, stashcfg := c.stashcfg, away := true }

/-- A doubleword of a context record is written; a line at an unpopulated address leaves one RAS record (R207). -/
def putRecord (s : State) (area : Nat) (p : Nat × List Byte) : State :=
  let pa := area + p.1
  if pa % 128 = 0 then putArea s (partOf s) pa p.2 else putHome s (s.mem.pkey.get (pa / 128)) pa p.2

/-- What of the partition's arrivals has found no slot when it leaves: messages at the port, and what a restore had not
yet placed. It goes to the partition's late ring (R363). -/
def unplaced (s : State) : List (List Byte) :=
  let ring := match s.cpu.lateRing with
    | some a => (List.range (ringCount s a)).map fun i => areaBytes s (a + 0x41000 + 64 * ((areaWord s (a + 16) + i) % 2 ^ 32 % ringLength s a)) 64
    | none => []
  (s.cpu.port.map fun p => messageBytes p.m) ++ ring ++ (s.cpu.latePort.filter fun p => decide (p.1 = partOf s)).map (·.2)

/-- Step 5 of R360: the record is written and the core leaves its partition. -/
def saveContext (s : State) (sp : SavePoint) : State :=
  let rest := unplaced s
  let s := { s with cpu := { s.cpu with port := [], lateRing := none, latePort := s.cpu.latePort.filter fun p => decide (p.1 ≠ partOf s) } }
  let area := field s.cpu.slcfg 16 28 * 65536
  let d := s.own.draws
  let c := recordedCore s sp
  let ctx := contextOf s { c with switching := false, saving := none } d
  let parts := recordParts s c (recordKind s sp) d ++ localParts s
  let bad := poisonOffsets s c
  let part := partOf s
  let s := { s with own := { s.own with draws := d + 1 } }
  let s := (parts.flatMap inDwords).foldl (fun s p => putRecord s area p) s
  let s := bad.foldl (fun s o => poisonHome s (area + o) 8) s
  let s := { s with
    cpu := awayCore s.cpu
    eng := Engines.reset
    net := { roots := [], out := [], flips := [], baris := [] }
    cfe := { s.cfe with partitions := s.cfe.partitions.map fun p => if p.id = part then { p with sliceOn := false } else p }
    dbg := { s.dbg with halted := 0, frozen := false }
    contexts := s.contexts ++ [ctx] }
  rest.foldl (fun s e => arriveLate s part e) s

/-- The engines have quiesced (R362); a frozen matrix engine stands at a chunk boundary (R372). A finished operation
completes first. -/
def enginesQuiet (s : State) : Bool :=
  (enginesFrozen s || (s.eng.running.isNone && s.eng.waiting.all fun m => !m.finished))
    && s.eng.channels.all (fun c => c.2.isNone) && s.eng.exchanges.isEmpty && s.eng.releases.isEmpty

/-- Steps 4 and 5 of R360. -/
def trySave (s : State) (sp : SavePoint) : State :=
  if !enginesQuiet s then s
  else
    let s := publish (if s.cpu.halted then setCorePc s (s.dbg.dpc.get (coreIndex s.cpu.coreId)) else s)
    if s.cpu.acks.isEmpty && s.cpu.inFlight.isEmpty && s.mem.buffer.isEmpty then saveContext s sp else s

/-- A core that runs no frame, or is parked, reaches step 4 at once (R360); one in debug mode is saved at
the deadline (R372). -/
def isResting (s : State) : Bool := !s.cpu.halted && (s.cpu.parked.isSome || (isIdle s && s.cpu.trap.isNone))


/-- SLICE_INSTANT (R360): the core becomes switch-pending; from its save point on it saves. -/
def execSliceInstant (s : State) : Host.Outcome State Fault Refusal :=
  .next (if !sliceDue s then s
    else
      let s := { s with cpu := { s.cpu with switching := true } }
      let s := if s.cpu.saving.isNone && isResting s then { s with cpu := { s.cpu with saving := some wholeSave } } else s
      match s.cpu.saving with
      | some sp => trySave s sp
      | none => s)

/-- SLICE_DEADLINE (R361): 20 µs after AT a core that has met no save point is saved in full. -/
def execSliceDeadline (s : State) : Host.Outcome State Fault Refusal :=
  .next (if deadlinePassed s then
      let sp := s.cpu.saving.getD wholeSave
      trySave { s with cpu := { s.cpu with switching := true, saving := some sp } } sp
    else s)

/-! ## Restoring (R364, R369) -/

/-- How a restore reads a record: a byte, a poisoned granule, and the address of an offset. -/
structure RecordView where
  byte : Nat → Byte
  bad : Nat → Bool
  addr : Nat → Word

/-- A little-endian field of a record. -/
def RecordView.num (r : RecordView) (off n : Nat) : Nat := ofBytes ((List.range n).map fun i => r.byte (off + i))

/-- The saved context that the bytes without a layout name. [log 33: DESIGN CHOICE] -/
def matching (s : State) (r : RecordView) : Option Context :=
  s.contexts.find? fun c =>
    let bs := imageRun c.image imagePart.1 imagePart.2
    (bs.zip (List.range bs.length)).all fun x => decide (r.byte (imagePart.1 + x.2) = x.1)

/-- A window from a record. -/
def windowFrom (r : RecordView) (off n : Nat) : Table Word :=
  (List.range n).foldl (fun (t : Table Word) i => if i = 0 then t else t.set i (word (r.num (off + 8 * i) 8))) []

/-- The registers of a window that a record holds poisoned. -/
def poisonFrom (r : RecordView) (off n : Nat) : List PoisonMark :=
  ((List.range n).filter fun i => i ≠ 0 && r.bad (off + 8 * i)).map fun i => { reg := i, addr := r.addr (off + 8 * i) }

/-- A register file of `n` registers of `size` bytes for each recorded level. -/
def bankFrom {w : Nat} (r : RecordView) (levels : List Nat) (off n size : Nat) : Table (BitVec w) :=
  levels.foldl (fun (t : Table (BitVec w)) p =>
    (List.range n).foldl (fun (t : Table (BitVec w)) i => t.set (n * p + i) (BitVec.ofNat w (r.num (0x2000 + 0x2000 * p + off + size * i) size))) t) []

/-- The banked registers that a record holds poisoned. -/
def bankPoisonFrom (r : RecordView) (levels : List Nat) : Table Bool :=
  levels.foldl (fun (t : Table Bool) p =>
    ((List.range 77).filter fun i => 32 ≤ i).foldl (fun (t : Table Bool) i =>
      let at_ := 0x2000 + 0x2000 * p + (bankPlace i).1
      t.set (128 * p + i) ((List.range ((bankPlace i).2 / 8)).any fun j => r.bad (at_ + 8 * j))) t) []

/-- Eight doublewords of a record. -/
def RecordView.words (r : RecordView) (off : Nat) : List Word := (List.range 8).map fun i => word (r.num (off + 8 * i) 8)

/-- The control part and the inbox of a record (R362, R365). -/
def restoredControl (saved : Core) (r : RecordView) : Core :=
  let c := (List.range controlCount).foldl (fun c i => setControl c i (word (r.num (0x32000 + 8 * i) 8))) saved
  withMessages c (imageMessages c fun n => (List.range 64).map fun i => r.byte (0x40000 + 64 * n + i))

/-- The core that a record gives, over what belongs to no partition. -/
def restoredCore (cur : Core) (before : Core) (r : RecordView) : Core :=
  let saved := restoredControl before r
  let lv := r.num 24 3
  let levels := (List.range 24).filter fun p => keepsLevel saved lv p
  let frame := fun (x : Frame × Nat) =>
    let f := withFrameWords x.1 (r.words (0x40 + 64 * x.2))
    let n := 8 * (f.wcode.toNat + 1)
    let off := 0x800 + 256 * f.level
    { f with regs := windowFrom r off n, poison := poisonFrom r off n, spilled := false }
  { saved with
    frames := ((saved.frames.reverse.zip (List.range 24)).map frame).reverse
    trap := saved.trap.map fun t =>
      { withTrapWords t (r.words (0x40 + 64 * saved.frames.length)) with regs := windowFrom r 0x680 32, poison := poisonFrom r 0x680 32 }
    v := bankFrom r levels 0 16 64
    k := bankFrom r levels 0x400 8 8
    e := bankFrom r levels 0x440 4 8
    g := bankFrom r levels 0x460 8 32
    sc := (bankFrom r levels 0x560 4 8 : Table Word).map fun x => (x.1, x.2 &&& scMask)
    fpctl := (bankFrom r levels 0x580 1 8 : Table Word).map fun x => (x.1, x.2 &&& fpctlMask)
    tiles := bankFrom r levels 0x588 1024 4
    bankPoison := bankPoisonFrom r levels
    time := cur.time
    synced := cur.synced
    cyc := cur.cyc
    retired := cur.retired
    coreId := cur.coreId
    latePort := cur.latePort
    q3Out := cur.q3Out
    lateRing := cur.lateRing
    bar := if saved.member then saved.bar else []
    halted := cur.halted
    trapWaits := cur.trapWaits
    stepping := cur.stepping
    stale := cur.stale
    badCode := []
    inFlight := cur.inFlight
    nextId := cur.nextId
    acks := cur.acks
    poweredOff := cur.poweredOff
    stashcfg := cur.stashcfg
    switching := cur.switching
    saving := none
    away := false }

/-- Steps 1 and 2 of R364: local memory, registers, frames and engine state. -/
def restoreFrom (s : State) (c : Context) (r : RecordView) : State :=
  let blocks := (List.range 16).filter fun n => decide (r.num 28 2 / 2 ^ n % 2 = 1)
  let put := fun (s : State) (n : Nat) =>
    (List.range 0x2000).foldl (fun s i =>
      let off := 0x100000 + 0x10000 * n + 8 * i
      let key := ownKey s (0x10000 * n + 8 * i)
      let s := putLocal s key ((List.range 8).map fun j => r.byte (off + j))
      if r.bad off then poisonLocal s key 8 else s) s
  let s := occupyRegion (blocks.foldl put (placeStash s c.cpu.stashcfg)) (coreIndex s.cpu.coreId)
  let s := { s with
    cpu := restoredCore s.cpu c.cpu r
    eng := { c.eng with channels := s.eng.channels, exchanges := s.eng.exchanges } }
  makeRoom s 1

/-- Step 4 of R364: what the CFE writes for the incoming partition (R357 to R359, R388). -/
def identify (s : State) (p : Partition) (area : Nat) (words : List Word) : State :=
  let prect := (List.range 8).foldl (fun (t : Table Word) i => t.set i (p.prect.getD i 0 &&& precMask)) []
  let s := { s with cpu := { s.cpu with
      partid := withField p.partid 0 6 p.id.toNat, fhand := p.fhand, keymask := p.keymask, xroot := p.xroot, prect := prect, slat := p.slat,
      slcfg := at_ 16 (area / 65536 % 2 ^ 28) ||| at_ 1 p.rlog.toNat ||| at_ 0 (bnat p.sliceOn),
      slkeep := at_ 16 p.lvkeep.toNat ||| zextField p.lmkeep,
      peatcfg := peatWord p } }
  ((List.range 64).zip words).foldl (fun s x => putOwnDword s (8 * (192 + x.1)) x.2) s

/-- A core that was saved in debug mode is in debug mode again (R372). [log 75: DEDUCED] -/
def restoreHalt (s : State) (c : Context) : State :=
  let s := { s with dbg := { s.dbg with halted := s.dbg.halted ||| c.halted, frozen := s.dbg.frozen || c.frozen } }
  if c.cpu.halted then
    { s with
      cpu := { s.cpu with halted := true, trapWaits := c.cpu.trapWaits }
      dbg := { s.dbg with dpc := s.dbg.dpc.set (coreIndex s.cpu.coreId) (readPc s &&& at_ 0 (2 ^ 55 - 1)) } }
  else s

/-- CONTEXT_RESTORE (R364): the core takes the record of an incoming partition. -/
def execContextRestore (area : BitVec 44) (s : State) : Host.Outcome State Fault Refusal :=
  let a := area.toNat
  let r : RecordView := { byte := fun o => (areaBytes s (a + o) 1).headD 0, bad := fun o => homePoisoned s (a + o), addr := fun o => word (a + o) }
  .next (match matching s r with
    | none => s
    | some c =>
      match s.cfe.partitions.find? fun p => decide (p.id.toNat = r.num 4 1) with
      | none => s
      | some p =>
        if !s.cpu.away || s.cpu.poweredOff then s
        else
          let s := restoreHalt { restoreFrom s c r with net := c.net } c
          let s := admitLate { s with cpu := { s.cpu with partid := withField s.cpu.partid 0 6 p.id.toNat, lateRing := some a } }
          judgeHeld (identify s p a c.identity))

/-! ## CTXSV and CTXRS (R369) -/

/-- The check of X(ra) for CTXSV and CTXRS (R367, R369): the area and whether SEL is 1, or a reason. -/
def areaOperand (s : State) (x : Word) : Except Nat (Nat × Bool) :=
  let sel := field x 0 2
  if 2 ≤ sel || decide (field x 2 (if sel = 0 then 14 else 6) ≠ 0) then .error 1
  else
    let area := x.toNat - sel
    if area < 0x100000000 then .error 2
    else if sel = 1 && s.cpu.trap.isNone then .error 5
    else .ok (area, decide (sel = 1))

/-- One plain store of a record; a buffer without room drains first (R213, R369). -/
def storeDword (s : State) (a : Nat) (bs : List Byte) : Acc Unit :=
  let s := if 14 ≤ s.mem.buffer.length then (match s.mem.buffer with
      | b :: _ => drainEntry s b
      | [] => s) else s
  coreStore s false a bs

/-- Plain stores in order; a trap leaves those before it (R369). -/
def storeAll (area : Nat) : List (Nat × List Byte) → State → Acc Unit
  | [], s => .ok s ()
  | p :: ps, s => (storeDword s (area + p.1) p.2).bind fun s _ => storeAll area ps s

/-- Plain loads of doublewords in order, each with whether its granule is poisoned (R369). -/
def loadAll (area : Nat) : List Nat → State → Acc (List (List Byte × Bool))
  | [], s => .ok s []
  | o :: os, s =>
    (resolve s .load false (area + o) 8).bind fun s ps =>
      (viewPieces s ps).bind fun s vs =>
        let bad := (ps.zip vs).any fun x => piecePoisoned s x.1 x.2
        let bytes := (ps.zip vs).flatMap fun x => pieceBytes s x.1 x.2
        (loadAll area os s).map fun l => (bytes, bad) :: l

/-- Translation and permission of the pages of an area (R369). -/
def checkPages (area : Nat) : List Nat → State → Acc Unit
  | [], s => .ok s ()
  | n :: ns, s => (resolve s .load false (area + 65536 * n) 8).bind fun s _ => checkPages area ns s

/-- The first poisoned granule, as an address, of the local-memory blocks that a record holds (R223). -/
def poisonedBlock (s : State) : Option Nat :=
  let marked := s.mem.lpoison.filterMap fun p =>
    let a := 8 * p.1 - ownKey s 0
    if decide (ownKey s 0 ≤ 8 * p.1) && decide (a < 0x100000) && bit s.cpu.slkeep (a / 0x10000) && localPoison s (8 * p.1) 1 then some a else none
  marked.min?

/-- The TRAPVAL of a register of any frame or of a granule of local memory that is poisoned: the save reads it (R223,
R258). [log 37: DEDUCED] -/
def poisonedContext (s : State) (c : Core) : Option Word :=
  let windows := (c.frames.flatMap (·.poison)) ++ ((c.trap.map (·.poison)).getD [])
  match windows.head? with
  | some p => some p.addr
  | none => if c.bankPoison.isEmpty then (poisonedBlock s).map word else some 0

/-- The trapped frame's registers await an atomic. [log 37: DEDUCED] -/
def awaitsAny (s : State) : Bool := s.cpu.inFlight.any (·.returning)

/-- CTXSV (R369). [log 37: DEDUCED] -/
def ctxsvBody (a : Reg) (s : State) : Res :=
  let x := readX s a
  match areaOperand s x with
  | .error r => (partTrap s r x : Acc Unit).run fun s _ => .ok s
  | .ok (area, one) =>
    if awaitsAny s || isFenced s 0 then .stall (waitForAtomics (waitFenced s 0) fun a => a.returning)
    else if one then
      let f := s.cpu.frames.head?.map (residentFrame s)
      match (f.map (·.poison)).bind List.head? with
      | some p => .trap s causePoison p.addr
      | none => (storeAll area (inDwords (0, windowBytes ((f.map (·.regs)).getD []))) s).run fun s _ => .ok s
    else
      let next := writePc s (npc s (.ctxsv a))
      let c := recordedCore next wholeSave
      match poisonedContext s c with
      | some a => .trap s causePoison a
      | none =>
        let d := s.own.draws
        let parts := recordParts next c 1 d ++ localParts s
        let ctx := contextOf s c d
        (storeAll area (parts.flatMap inDwords) { s with own := { s.own with draws := d + 1 } }).run fun s _ =>
          .ok { s with contexts := s.contexts ++ [ctx] }

/-- The doublewords of a record that CTXRS reads, the late ring aside. -/
def recordOffsets (lmkeep : Nat) : List Nat :=
  ((List.range 0x8200).map fun i => 8 * i)
    ++ ((List.range 16).filter fun n => decide (lmkeep / 2 ^ n % 2 = 1)).flatMap fun n => (List.range 0x2000).map fun i => 0x100000 + 0x10000 * n + 8 * i

/-- The view of loaded doublewords. -/
def loadedView (area : Nat) (offs : List Nat) (l : List (List Byte × Bool)) : RecordView :=
  let find := fun o => ((offs.zip l).find? fun x => decide (x.1 = o / 8 * 8)).map (·.2)
  { byte := fun o => ((find o).map fun x => x.1.getD (o % 8) 0).getD 0, bad := fun o => ((find o).map (·.2)).getD false, addr := fun o => word (area + o) }

/-- CTXRS (R369). [log 37: DEDUCED] -/
def ctxrsBody (a : Reg) (s : State) : Res :=
  let x := readX s a
  match areaOperand s x with
  | .error r => (partTrap s r x : Acc Unit).run fun s _ => .ok s
  | .ok (area, one) =>
    if awaitsAny s || isFenced s 0 then .stall (waitForAtomics (waitFenced s 0) fun a => a.returning)
    else if one then
      (loadAll area ((List.range 32).map fun i => 8 * i) s).run fun s l =>
        let r := loadedView area ((List.range 32).map fun i => 8 * i) l
        match s.cpu.frames with
        | [] => .ok s
        | f :: fs =>
          let n := 8 * (f.wcode.toNat + 1)
          .ok { s with cpu := { s.cpu with frames := { f with regs := windowFrom r 0 n, poison := poisonFrom r 0 n, spilled := false } :: fs } }
    else
      (checkPages area (List.range 32) s).run fun s _ =>
        (loadAll area [24] s).run fun s h =>
          let offs := recordOffsets (ofBytes (((h.headD ([], false)).1.drop 4).take 2))
          (loadAll area offs s).run fun s l =>
            let r := loadedView area offs l
            if r.num 4 1 ≠ (partOf s).toNat then (partTrap s 3 x : Acc Unit).run fun s _ => .ok s
            else if r.num 0x3FFFC 4 ≠ (crc32 ((List.range 0xDFFC).map fun i => r.byte (0x32000 + i))).toNat then
              (partTrap s 4 x : Acc Unit).run fun s _ => .ok s
            else
              match matching s r with
              | none => (partTrap s 4 x : Acc Unit).run fun s _ => .ok s
              | some c =>
                let cur := s.cpu
                let s := restoreFrom (retire s) c r
                .done { s with cpu := { s.cpu with partid := cur.partid, fhand := cur.fhand, keymask := cur.keymask, prect := cur.prect, slat := cur.slat, slcfg := cur.slcfg, slkeep := cur.slkeep, peatcfg := cur.peatcfg } }

/-- CTXSV. -/
def execCtxsv (a : Reg) (s : State) : Host.Outcome State Fault Refusal := runInstr (.ctxsv a) (ctxsvBody a) s

/-- CTXRS. -/
def execCtxrs (a : Reg) (s : State) : Host.Outcome State Fault Refusal := runInstr (.ctxrs a) (ctxrsBody a) s

/-! ## TLBINV (R370) -/

/-- A cached leaf that TLBINV names. [log 15: DEDUCED] -/
def tlbNamed (s : State) (va : Nat) (all : Bool) (t : TlbEntry) : Bool :=
  decide (t.part = partOf s) && (all || decide (t.base = (if t.big then va / 2 ^ 29 * 2 ^ 29 else va / 65536 * 65536)))

/-- The cluster of the core is a cluster of a rectangle PRECTn (R370). -/
def clusterInRect (s : State) : Bool :=
  (List.range 4).any fun c =>
    let id := s.cpu.coreId &&& 0x3FFEE ||| BitVec.ofNat 18 (c % 2 + 16 * (c / 2))
    (List.range 8).any fun n => bit (s.cpu.prect.get n) 63 && inRect (s.cpu.prect.get n) id

/-- TLBINV (R370): with WIDE = 0 at the own cluster, with WIDE = 1 at every cluster of the partition's rectangles,
this one when they contain it. -/
def tlbinvBody (a b : Reg) (s : State) : Res :=
  let x := readX s b
  if 2 ≤ field x 62 2 || decide (field x 0 61 ≠ 0) then (partTrap s 1 x : Acc Unit).run fun s _ => .ok s
  else
    let va := (readX s a).toNat
    let all := decide (field x 62 2 = 1)
    let s := publish s
    if bit x 61 && !clusterInRect s then .ok s
    else
      .ok { s with mem := { s.mem with
        tlb := s.mem.tlb.filter fun t => !(tlbNamed s va all t)
        tlbinvs := s.mem.tlbinvs ++ [{ tick := s.own.tick, part := partOf s, va := if all then none else some va }] } }

/-- TLBINV. -/
def execTlbinv (a b : Reg) (s : State) : Host.Outcome State Fault Refusal := runInstr (.tlbinv a b) (tlbinvBody a b) s

end Sys2Proof.Machine
end

