-- ==== Sys2Proof/Machine/Debug.lean ====
section
/-! DEFINITION. The cluster debug module, program-counter samples, and the memory errors
of R222 to R224 (R352, R371 to R377, R381). -/

namespace Sys2Proof.Machine

/-! ## Halt and resume (R372, R373, R375, R376) -/

/-- The core can enter debug mode: it has power and is not in it. -/
def mayHalt (s : State) : Bool := !s.cpu.halted && !s.cpu.poweredOff

/-- HALTREQ halts the cores it names that are not in debug mode (R372, R373). -/
def haltRequest (s : State) (mask : BitVec 4) : State :=
  if !s.dbg.en then s
  else
    let others := mask &&& ~~~ ownBit s &&& ~~~ s.dbg.halted
    let self := bit mask (coreIndex s.cpu.coreId) && mayHalt s
    let s := haltSiblings s others
    let s := if others = 0 then s else { s with dbg := { s.dbg with
      frozen := true, cause := 1, triggers := s.dbg.triggers + bnat (s.dbg.xtout && !self) } }
    if self then haltCore s 1 else s

/-- HALTREQ. -/
def execHaltreq (mask : BitVec 4) (s : State) : Host.Outcome State Fault Refusal := .next (haltRequest s mask)

/-- The core leaves debug mode at DPCc; a trap that halted it is entered from step 2 of R345 (R373,
R375). With its STEP bit set it runs one instruction (R376). -/
def resumeCore (s : State) : State :=
  let pc := s.dbg.dpc.get (coreIndex s.cpu.coreId)
  let waits := s.cpu.trapWaits
  let s := setCorePc { s with
    cpu := { s.cpu with halted := false, trapWaits := false, stepping := bit s.dbg.step (coreIndex s.cpu.coreId) }
    dbg := { s.dbg with qfull := s.dbg.qfull &&& ~~~ ownBit s } } pc
  if waits then
    if bit s.cpu.tvec 0 then pushTrap s false none
    else nestedTrap s (BitVec.ofNat 8 (field s.cpu.trapCause 0 8)) s.cpu.trapPc s.cpu.trapVal
  else s

/-- RESUMEREQ resumes the cores it names; the engines go on at the first resume that is no step (R375, R376). -/
def resumeRequest (s : State) (mask : BitVec 4) : State :=
  if !s.dbg.en then s
  else
    let named := bit mask (coreIndex s.cpu.coreId) && s.cpu.halted
    let goes := s.dbg.halted &&& mask &&& ~~~ s.dbg.step
    let s := { s with dbg := { s.dbg with halted := s.dbg.halted &&& ~~~ mask, frozen := s.dbg.frozen && decide (goes = 0), engStep := if goes = 0 then s.dbg.engStep else none } }
    if named then resumeCore s else s

/-- RESUMEREQ. -/
def execResumereq (mask : BitVec 4) (s : State) : Host.Outcome State Fault Refusal :=
  .next (resumeRequest { s with own := { s.own with turn := .core } } mask)

/-- A trigger halts the cluster with XTIN set, when a core of it is not in debug mode (R373): CAUSE 2 for one from
another cluster, 6 for one that a watch report has sent. -/
def triggerArrives (s : State) (cause : BitVec 8) : State :=
  if s.dbg.en && s.dbg.xtin && decide (s.dbg.halted ≠ 0xF) then
    if mayHalt s then haltCore s cause
    else
      let s := haltSiblings s 0xF
      { s with dbg := { s.dbg with halted := 0xF, frozen := true, cause := cause, triggers := s.dbg.triggers + bnat s.dbg.xtout } }
  else s

/-- DEBUG_TRIGGER: from another cluster. -/
def execDebugTrigger (s : State) : Host.Outcome State Fault Refusal := .next (triggerArrives s 2)

/-! ## Stepping an engine (R377) -/

/-- The matrix engine's running operation goes on to the next chunk boundary, the last of which ends the operation
(R293), or to the end of another command. -/
def stepMatrix (s : State) : State :=
  match s.eng.running with
  | some m =>
    if m.cmd.isProduct then
      let s := chunkStep (faultStep s)
      if s.eng.waiting.any fun w => decide (w.cmd = m.cmd) && w.finished then matrixCompletes s else s
    else wholeCompletes s
  | none => matrixCompletes s

/-- The copy engine runs until a running copy has completed: which one is a free choice. -/
def stepCopy (s : State) : State :=
  let busy := (List.range 16).filter fun i => (s.eng.channels.get i).isSome
  let d := draw s busy.length
  match busy[d.1]? with
  | some ch => finishCopy d.2 ch
  | none => s

/-- A step of an engine that has work and has not moved is not over: it awaits lines of another device, or its turn in
replay. -/
def awaitStep (v : Word) (s t : State) (busy : Bool) : State :=
  { t with dbg := { t.dbg with engStep := if busy && decide (t.eng = s.eng) then some v else none } }

/-- ENGSTEP (R377): bit 3 names the copy engine, bits 1 to 0 the core. -/
def engineStep (s : State) (v : Word) : State :=
  if !s.dbg.en || !enginesFrozen s || enginesHeld s then s
  else if bit v 3 then awaitStep v s (stepCopy s) ((List.range 16).any fun i => (s.eng.channels.get i).isSome)
  else if field v 0 2 = coreIndex s.cpu.coreId then
    let s := if s.eng.running.isSome then s else startBest s
    awaitStep v s (stepMatrix s) s.eng.running.isSome
  else s

/-- A step of an engine goes on. -/
def stepGoesOn (s : State) : State :=
  match s.dbg.engStep with
  | some v => engineStep s v
  | none => s

/-- ENGSTEP. -/
def execEngstep (v : Word) (s : State) : Host.Outcome State Fault Refusal := .next (engineStep s v)

/-! ## Abstract commands (R374) -/

/-- What a doubleword of the live context is (R365): a register, a frame's record, a part of the engine and queue
state or of the inbox. -/
inductive Spot where
  | window (lvl i : Nat)
  | trapWindow (i : Nat)
  | v (lvl i j : Nat)
  | k (lvl i : Nat)
  | e (lvl i : Nat)
  | g (lvl i j : Nat)
  | sc (lvl i : Nat)
  | fpctl (lvl : Nat)
  | tile (lvl i : Nat)
  | record (n j : Nat)
  | control (i : Nat)
  | inbox (slot j : Nat)
  | image (off : Nat)
  deriving DecidableEq, Repr

/-- A doubleword of a level's bank (R365). -/
def bankSpot (p off : Nat) : Option Spot :=
  if off < 0x400 then some (.v p (off / 64) (off / 8 % 8))
  else if off < 0x440 then some (.k p ((off - 0x400) / 8))
  else if off < 0x460 then some (.e p ((off - 0x440) / 8))
  else if off < 0x560 then some (.g p ((off - 0x460) / 32) ((off - 0x460) / 8 % 4))
  else if off < 0x580 then some (.sc p ((off - 0x560) / 8))
  else if off < 0x588 then some (.fpctl p)
  else if off < 0x1588 then some (.tile p ((off - 0x588) / 4))
  else none

/-- The frame of a level. -/
def frameAt (s : State) (lvl : Nat) : Option Frame := s.cpu.frames.find? fun f => decide (f.level = lvl)

/-- The doubleword at a context offset, none where the offset names no register or state. [log 39: DESIGN CHOICE] -/
def spotAt (s : State) (off : Nat) : Option Spot :=
  if off % 8 ≠ 0 || decide (0x41000 ≤ off) || decide (off < 0x40) then none
  else if off < 0x680 then
    (if (off - 0x40) / 64 < s.cpu.frames.length + bnat s.cpu.trap.isSome then some (.record ((off - 0x40) / 64) (off / 8 % 8)) else none)
  else if off < 0x780 then (if s.cpu.trap.isSome then some (.trapWindow ((off - 0x680) / 8)) else none)
  else if off < 0x800 then none
  else if off < 0x2000 then
    let lvl := (off - 0x800) / 256
    let i := off / 8 % 32
    match frameAt s lvl with
    | some f => if i < 8 * (f.wcode.toNat + 1) then some (.window lvl i) else none
    | none => none
  else if off < 0x32000 then bankSpot ((off - 0x2000) / 0x2000) (off % 0x2000)
  else if off < imagePart.1 then some (.control ((off - 0x32000) / 8))
  else if off < 0x40000 then some (.image off)
  else some (.inbox ((off - 0x40000) / 64) (off / 8 % 8))

/-- The record of frame n, the lowest first, the trap frame's last. -/
def recordWords (s : State) (n : Nat) : List Word :=
  match s.cpu.frames.reverse[n]? with
  | some f => frameWords f
  | none => (s.cpu.trap.map trapWords).getD []

/-- Write a doubleword of a frame's record. -/
def writeRecord (s : State) (n j : Nat) (w : Word) : State :=
  match s.cpu.frames.reverse[n]? with
  | some f => { s with cpu := { s.cpu with frames := (s.cpu.frames.reverse.set n (withFrameWords f ((frameWords f).set j w))).reverse } }
  | none => { s with cpu := { s.cpu with trap := s.cpu.trap.map fun t => withTrapWords t ((trapWords t).set j w) } }

/-- The value at a spot. What the model has no layout for reads as it was written, and before that as a free
value. [log 39: DESIGN CHOICE] -/
def readSpot (s : State) (x : Spot) : State × Word :=
  match x with
  | .window l i => (s, if i = 0 then 0 else ((frameAt s l).map fun f => (residentFrame s f).regs.get i).getD 0)
  | .trapWindow i => (s, if i = 0 then 0 else (s.cpu.trap.map fun t => t.regs.get i).getD 0)
  | .v l i j => (s, word (field (s.cpu.v.get (16 * l + i)) (64 * j) 64))
  | .k l i => (s, s.cpu.k.get (8 * l + i))
  | .e l i => (s, s.cpu.e.get (4 * l + i))
  | .g l i j => (s, word (field (s.cpu.g.get (8 * l + i)) (64 * j) 64))
  | .sc l i => (s, s.cpu.sc.get (4 * l + i))
  | .fpctl l => (s, s.cpu.fpctl.get l)
  | .tile l i => (s, at_ 32 (s.cpu.tiles.get (1024 * l + i + 1)).toNat ||| at_ 0 (s.cpu.tiles.get (1024 * l + i)).toNat)
  | .record n j => (s, (recordWords s n).getD j 0)
  | .control i => (s, controlWord s.cpu i)
  | .inbox n j => (s, ((inboxMessages s.cpu)[n]?.map fun m => dword (messageBytes m) j).getD 0)
  | .image off =>
    if s.cpu.image.any fun e => decide (e.1 = off) then (s, s.cpu.image.get off)
    else
      let d := draw s (2 ^ 64)
      (d.2, word d.1)

/-- Write a register of a frame's window, in its spill slot while the window is spilled. -/
def writeFrame (s : State) (l i : Nat) (x : Word) : State :=
  if i = 0 then s
  else match frameAt s l with
    | none => s
    | some f =>
      if f.spilled then putLocal s (ownKey s (f.spillSlot + 8 * i)) (toBytes 8 x.toNat)
      else
        let put := fun (f : Frame) => if f.level = l then { f with regs := f.regs.set i x, poison := f.poison.filter fun p => p.reg ≠ i } else f
        { s with cpu := { s.cpu with frames := s.cpu.frames.map put } }

/-- A written register of a level's bank is no longer poisoned (R223). -/
def cleanBank (s : State) (l r : Nat) : State := { s with cpu := { s.cpu with bankPoison := s.cpu.bankPoison.set (128 * l + r) false } }

/-- Write a spot (R374); reserved bits stay zero (R7). [log 39: DESIGN CHOICE] -/
def writeSpot (s : State) (x : Spot) (w : Word) : State :=
  match x with
  | .window l i => writeFrame s l i w
  | .trapWindow i => (match s.cpu.trap with
    | some t => if i = 0 then s else { s with cpu := { s.cpu with trap := some { t with regs := t.regs.set i w, poison := t.poison.filter fun p => p.reg ≠ i } } }
    | none => s)
  | .v l i j => cleanBank { s with cpu := { s.cpu with v := s.cpu.v.set (16 * l + i) (BitVec.ofNat 512 (mergeBits (s.cpu.v.get (16 * l + i)).toNat (64 * j) 64 w.toNat)) } } l (32 + i)
  | .k l i => cleanBank { s with cpu := { s.cpu with k := s.cpu.k.set (8 * l + i) w } } l (48 + i)
  | .e l i => cleanBank { s with cpu := { s.cpu with e := s.cpu.e.set (4 * l + i) w } } l (56 + i)
  | .g l i j => cleanBank { s with cpu := { s.cpu with g := s.cpu.g.set (8 * l + i) (BitVec.ofNat 256 (mergeBits (s.cpu.g.get (8 * l + i)).toNat (64 * j) 64 w.toNat)) } } l (64 + i)
  | .sc l i => cleanBank { s with cpu := { s.cpu with sc := s.cpu.sc.set (4 * l + i) (w &&& scMask) } } l (72 + i)
  | .fpctl l => cleanBank { s with cpu := { s.cpu with fpctl := s.cpu.fpctl.set l (fpctlWrite (s.cpu.fpctl.get l) w) } } l 76
  | .tile l i =>
    let t := s.cpu.tiles.set (1024 * l + i) (BitVec.ofNat 32 (field w 0 32))
    cleanBank { s with cpu := { s.cpu with tiles := t.set (1024 * l + i + 1) (BitVec.ofNat 32 (field w 32 32)) } } l (60 + i / 256)
  | .record n j => writeRecord s n j w
  | .control i => { s with cpu := setControl s.cpu i w }
  | .inbox n j => { s with cpu := withMessages s.cpu ((inboxMessages s.cpu).modify n fun m => setMessageWord m j w) }
  | .image off => { s with cpu := { s.cpu with image := s.cpu.image.set off w } }

/-- ASTAT of this core's last command. -/
def setAstat (s : State) (v : BitVec 4) : State := { s with dbg := { s.dbg with astat := v } }

/-- The word of ACMD for an operation on this core. -/
def acmdWord (s : State) (op : Nat) (addr : BitVec 55) : Word := at_ 60 op ||| at_ 58 (coreIndex s.cpu.coreId) ||| zextField addr

/-- An outcome of a VA access: a failure leaves nothing done; one that waits stays busy. -/
def accessDone {α : Type} (s : State) (x : Acc α) (f : State → α → State) : State :=
  match x with
  | .ok t a => setAstat (dropUsed (f t a)) 0
  | .trap t _ _ => setAstat (dropUsed { s with own := t.own }) 3
  | .stall t => setAstat t 1

/-- The access that ACMD asks for, on this core (R374). [log 39: DESIGN CHOICE] -/
def performAcmd (s : State) : State :=
  let op := field s.dbg.acmd 60 4
  let a := field s.dbg.acmd 0 55
  if !s.cpu.halted || s.cpu.away || s.cpu.poweredOff then setAstat s 2
  else if op = 1 || op = 2 then
    match spotAt s a with
    | none => setAstat s 2
    | some x =>
      if op = 1 then
        let r := readSpot s x
        setAstat { r.1 with dbg := { r.1.dbg with adata := r.2 } } 0
      else setAstat (writeSpot s x s.dbg.adata) 0
  else if op = 3 then
    accessDone s (coreLoad s false a 8) fun t b => { t with dbg := { t.dbg with adata := wordOf b } }
  else if op = 4 then
    accessDone s (coreStore s false a (toBytes 8 s.dbg.adata.toNat)) fun t _ => publish t
  else
    let d := draw s 3
    setAstat d.2 (if d.1 = 0 then 0 else BitVec.ofNat 4 (d.1 + 1))

/-- An access that waited goes on (R374). -/
def accessGoesOn (s : State) : State := if s.dbg.astat = 1 then performAcmd { s with own := { s.own with turn := .core } } else s

/-- A write of ACMD (R374): discarded while an access is in progress. The outcome on another core of the cluster is
free, unless it runs. [log 39: DESIGN CHOICE] -/
def writeAcmd (s : State) (v : Word) : State :=
  if !s.dbg.en || s.dbg.astat = 1 then s
  else
    let s := { s with dbg := { s.dbg with acmd := v } }
    if field v 58 2 = coreIndex s.cpu.coreId then performAcmd { s with own := { s.own with turn := .core } }
    else if !(bit s.dbg.halted (field v 58 2)) then setAstat s 2
    else
      let d := draw s 3
      let e := draw d.2 (2 ^ 64)
      let s := if d.1 = 0 && (field v 60 4 = 1 || field v 60 4 = 3) then { e.2 with dbg := { e.2.dbg with adata := word e.1 } } else e.2
      setAstat s (if d.1 = 0 then 0 else BitVec.ofNat 4 (d.1 + 1))

/-- ACMD_READ_CONTEXT. -/
def execAcmdReadContext (off : BitVec 55) (s : State) : Host.Outcome State Fault Refusal := .next (writeAcmd s (acmdWord s 1 off))
/-- ACMD_WRITE_CONTEXT. -/
def execAcmdWriteContext (off : BitVec 55) (s : State) : Host.Outcome State Fault Refusal := .next (writeAcmd s (acmdWord s 2 off))
/-- ACMD_READ_VA. -/
def execAcmdReadVa (va : BitVec 55) (s : State) : Host.Outcome State Fault Refusal := .next (writeAcmd s (acmdWord s 3 va))
/-- ACMD_WRITE_VA. -/
def execAcmdWriteVa (va : BitVec 55) (s : State) : Host.Outcome State Fault Refusal := .next (writeAcmd s (acmdWord s 4 va))

/-! ## Program-counter samples (R381 to R383) -/

/-- The reasons that can apply in the sampled cycle (R382): the state rules some out, and which of the
others holds is a free choice. [log 40: DESIGN CHOICE] -/
def sampleReasons (s : State) : List Nat :=
  if s.cpu.parked.isSome || s.cpu.halted then [12]
  else if isIdle s && s.cpu.trap.isNone then (if (dispatchLevel s).isSome then [10] else [13])
  else if s.cpu.ldhsSince.isSome then [8]
  else
    let trap := if s.cpu.trap.isSome then [11] else []
    if s.own.stalled then [1, 2, 3, 4, 5, 6, 7, 9, 10] ++ trap else [0, 1, 2, 3, 4, 5, 6, 7, 9, 10] ++ trap

/-- PC_SAMPLE (R381, R382, R383). [log 40: DESIGN CHOICE] -/
def takeSample (s : State) : State :=
  if !(bit s.cpu.pcscfg 5) || s.cpu.away || s.cpu.poweredOff then s
  else
    let rs := sampleReasons s
    let d := draw s rs.length
    let s := d.2
    let idx := field s.cpu.pcsidx 0 32
    let a := field s.cpu.pcsbase 16 39 * 65536 + 16 * (idx % 2 ^ (12 + field s.cpu.pcsbase 0 4))
    let lvl := if isIdle s then 0x1F else level s
    let w := at_ 60 (rs.getD d.1 0) ||| at_ 55 lvl ||| (readPc s &&& at_ 0 (2 ^ 55 - 1))
    let w2 := at_ 32 (field s.cpu.time 0 32) ||| zextField s.cpu.coreId
    match engineStore s (partOf s) a (toBytes 8 w.toNat ++ toBytes 8 w2.toNat) 4 with
    | (s, true) => { s with cpu := { s.cpu with pcsidx := withField s.cpu.pcsidx 0 32 (idx + 1) } }
    | (s, false) => { s with cpu := { s.cpu with pcsidx := withField s.cpu.pcsidx 32 32 (field s.cpu.pcsidx 32 32 + 1) } }

/-- PC_SAMPLE. -/
def execPcSample (s : State) : Host.Outcome State Fault Refusal := .next (takeSample { s with own := { s.own with turn := .core } })

/-! ## Memory errors (R222 to R224, R352) -/

/-- A line that stands in a set of a slice is poisoned there (R223): a home line, or a peer copy of the core's die. -/
def poisonLine (s : State) (slice : Nat) (ln : LineId) : State :=
  if isHome s ln && decide (homeDie ln.line = slice / 64) then poisonHome s (ln.line.toNat * 128) 128
  else
    let put := fun (p : PeerLine) => if p.line = ln && decide (p.use = .copy) then { p with poison := 0xFFFF } else p
    { s with mem := { s.mem with peers := s.mem.peers.map put } }

/-- The lines that stand in a set of a slice (R209). [log 41: DESIGN CHOICE] -/
def setLines (s : State) (slice set : Nat) : List LineId :=
  (List.range 16).filterMap fun w => (s.mem.l2.get (slice * 1024 + set)).ways.get w

/-- A core of this core's cluster, by its core index (R24). -/
def clusterCore (s : State) (c : BitVec 2) : Nat := (s.cpu.coreId &&& 0x3FFEE ||| BitVec.ofNat 18 (c.toNat % 2 + 16 * (c.toNat / 2))).toNat

/-- The partition that owns the region of an address of this device (R358), 0 for none. -/
def regionPart (s : State) (pa : Nat) : BitVec 6 := (s.cfe.owners.get (pa / 2 ^ 29)).getD 0

/-- An error in local memory that lies in this core's stash region strikes a granule of a line that stands in the
stash, or none (R205, R223): the spec does not place the stash's lines within it. [log 19: DESIGN CHOICE] -/
def poisonStash (s : State) : State :=
  let d := draw s (16 * s.mem.stash.length + 1)
  match (if d.1 = 0 then none else s.mem.stash[(d.1 - 1) / 16]?) with
  | none => d.2
  | some x => { d.2 with mem := { d.2.mem with stash := d.2.mem.stash.map fun l =>
      if l.line = x.line then { l with poison := l.poison ||| BitVec.ofNat 16 (2 ^ ((d.1 - 1) % 16)) } else l } }

/-- An uncorrectable error (R223, R352): a line of the instruction cache is restored by a refetch, or stays marked. [log 41: DESIGN CHOICE; 42: DESIGN CHOICE] -/
def uncorrectable (s : State) (t : SramTarget) : State :=
  match t with
  | .local_ c g =>
    let key := c.toNat * 0x100000 + 8 * g.toNat
    let own := decide ((stashSpan s).1 ≤ key) && decide (key < (stashSpan s).2)
    rasRecord (if own then poisonStash s else poisonLocal s key 8) 3 0 (partOf s) (clusterCore s c) (word (8 * g.toNat))
  | .global g =>
    let pa := 8 * g.toNat
    rasRecord (if populated pa then poisonHome s pa 8 else s) 3 2 (regionPart s pa) (sliceNumber (BitVec.ofNat 37 (pa / 128))) (word pa)
  | .register x =>
    let s := rasRecord s 3 6 (partOf s) (field s.cpu.coreId 0 18) (word x.toNat)
    if x = 0 then s
    else
      let mark : PoisonMark := { reg := x.toNat, addr := 0 }
      match s.cpu.trap, s.cpu.frames with
      | some t, _ => { s with cpu := { s.cpu with trap := some { t with poison := mark :: t.poison.filter fun p => p.reg ≠ x.toNat } } }
      | none, f :: fs => { s with cpu := { s.cpu with frames := { f with poison := mark :: f.poison.filter fun p => p.reg ≠ x.toNat } :: fs } }
      | none, [] => s
  | .bank r =>
    let s := rasRecord s 3 0 (partOf s) (field s.cpu.coreId 0 18) 0
    if 32 ≤ r.toNat && decide (r.toNat < 77) && (s.cpu.trap.isSome || !(isIdle s)) then
      { s with cpu := { s.cpu with bankPoison := s.cpu.bankPoison.set (128 * level s + r.toNat) true } }
    else s
  | .instruction g =>
    let d := draw s 2
    let t := if d.1 = 0 then d.2 else markCode d.2 (g.toNat / 16) none
    rasRecord t (if d.1 = 0 then 1 else 3) 5 (partOf s) (field s.cpu.coreId 0 18) (word (8 * g.toNat))
  | .directory slice set =>
    rasRecord ((setLines s slice.toNat set.toNat).foldl (fun s ln => poisonLine s slice.toNat ln) s) 3 3 0 slice.toNat 0
  | .other u => rasRecord s 3 u.toNat (partOf s) (field s.cpu.coreId 0 18) 0

/-- The unit and the id of the RAS record of a corrected error (R222, R353). [log 41: DESIGN CHOICE] -/
def correctedRecord (s : State) (t : SramTarget) : State :=
  let core := field s.cpu.coreId 0 18
  match t with
  | .local_ c g => rasRecord s 1 0 (partOf s) (clusterCore s c) (word (8 * g.toNat))
  | .global g => rasRecord s 1 2 (regionPart s (8 * g.toNat)) (sliceNumber (BitVec.ofNat 37 (8 * g.toNat / 128))) (word (8 * g.toNat))
  | .register x => rasRecord s 1 6 (partOf s) core (word x.toNat)
  | .bank _ => rasRecord s 1 0 (partOf s) core 0
  | .instruction g => rasRecord s 1 5 (partOf s) core (word (8 * g.toNat))
  | .directory slice _ => rasRecord s 1 3 0 slice.toNat 0
  | .other u => rasRecord s 1 u.toNat (partOf s) core 0

/-- SRAM_ERROR (R222, R223). -/
def execSramError (t : SramTarget) (correctable : Bool) (s : State) : Host.Outcome State Fault Refusal :=
  .next (if correctable then correctedRecord s t else uncorrectable s t)

/-- PATROL_SCRUB (R224): what the scrubber finds in a populated line is free: nothing, an error that the
code corrects, or one that it detects and that poisons a codeword of 64 bytes. [log 41: DESIGN CHOICE] -/
def scrubLine (s : State) (line : BitVec 37) : State :=
  let pa := line.toNat * 128
  if !populated pa then s
  else
    let d := draw s 4
    if d.1 = 0 then d.2
    else if d.1 = 1 then rasRecord d.2 2 4 (regionPart s pa) (sliceNumber line) (word pa)
    else rasRecord (poisonHome d.2 (pa + 64 * (d.1 - 2)) 64) 3 4 (regionPart s pa) (sliceNumber line) (word (pa + 64 * (d.1 - 2)))

/-- PATROL_SCRUB. -/
def execPatrolScrub (line : BitVec 37) (s : State) : Host.Outcome State Fault Refusal := .next (scrubLine s line)

end Sys2Proof.Machine
end

