-- ==== Sys2Proof/Machine/HostLink.lean ====
section
/-! DEFINITION. The host link: requests and answers of the host transaction layer, the host aperture,
doorbells, reads of host memory, and interrupts (R429 to R435, R448). -/

namespace Sys2Proof.Machine

/-! ## Answers (R431, R432) -/

/-- An answer to a host request: CPL with data, or WACK. -/
def answerHost (s : State) (type : Nat) (tid : BitVec 16) (stat : Nat) (body : List Byte) : State :=
  toHost s { type := BitVec.ofNat 6 type, part := 0, stat := BitVec.ofNat 4 stat, tid := tid, len := BitVec.ofNat 9 body.length, rsvd := false, addr := 0, body := body }

/-- WACK. -/
def writeAck (s : State) (p : HtlPacket) (stat : Nat) : State := answerHost s 0x11 p.tid stat []
/-- CPL. -/
def readAnswer (s : State) (p : HtlPacket) (stat : Nat) (body : List Byte) : State := answerHost s 0x10 p.tid stat body

/-- The fields that a request requires to be zero, and its type. -/
def requestBad (p : HtlPacket) (type : Nat) (parted : Bool) : Bool :=
  decide (p.type.toNat ≠ type) || p.rsvd || decide (p.stat ≠ 0) || (!parted && decide (p.part ≠ 0))

/-- A malformed AWR or ARD (R432). [log 54: DESIGN CHOICE] -/
def apertureBad (p : HtlPacket) (type : Nat) : Bool :=
  requestBad p type false || decide (p.len ≠ 8) || decide (p.addr.toNat % 8 ≠ 0) || decide (p.body.length ≠ (if type = 1 then 8 else 0))

/-- A malformed MWR or MRD (R432): 1 to 256 bytes within one 64 KiB page. -/
def memoryBad (p : HtlPacket) (type : Nat) : Bool :=
  requestBad p type true || decide (p.len = 0) || decide (256 < p.len.toNat)
    || decide (p.addr.toNat / 65536 ≠ (p.addr.toNat + p.len.toNat - 1) / 65536) || decide (p.body.length ≠ (if type = 3 then p.len.toNat else 0))

/-! ## Reads of host memory (R432) -/

/-- A transaction id that none of the CFE's outstanding reads has (R431). [log 54: DESIGN CHOICE] -/
def freeTid (s : State) : BitVec 16 :=
  let used := s.cfe.read.toList.map (·.tid) ++ s.cfe.fetches.map (·.2.tid)
  (((List.range (used.length + 1)).map fun i => s.cfe.nextTid + BitVec.ofNat 16 i).find? fun t => !(used.contains t)).getD s.cfe.nextTid

/-- Issue an HRD; its transaction id. -/
def issueRead (s : State) (addr : Word) (n : Nat) : State × BitVec 16 :=
  let tid := freeTid s
  let p : HtlPacket := { type := 9, part := 0, stat := 0, tid := tid, len := BitVec.ofNat 9 n, rsvd := false, addr := addr, body := [] }
  (toHost { s with cfe := { s.cfe with nextTid := tid + 1 } } p, tid)

/-- How many bytes the next HRD of a read asks for. -/
def nextPart (r : HostRead) : Nat := min 256 (r.want - r.got.length)

/-- Go on with a read: its next HRD. -/
def continueRead (s : State) (r : HostRead) : State × HostRead :=
  let i := issueRead s (r.addr + word r.got.length) (nextPart r)
  (i.1, { r with tid := i.2 })

/-- A read takes an answer: data of the right length, or a failure. -/
def takeAnswer (r : HostRead) (p : HtlPacket) : HostRead :=
  if p.stat = 0 then { r with got := r.got ++ p.body } else { r with failed := true }

/-- The administrative command reads `n` bytes from a host address, then goes on. -/
def startHostRead (s : State) (addr : Word) (n : Nat) : State :=
  let r := continueRead s { tid := 0, addr := addr, want := n, got := [], failed := false }
  { r.1 with cfe := { r.1.cfe with read := some r.2 } }

/-! ## The order of host writes (R429) -/

/-- A write of the host that waits, or that waits behind another. -/
def isHostWrite (k : Kept) : Bool :=
  match k with
  | .hostWrite _ _ _ _ => true
  | .hostPacket _ => true
  | .hostAperture _ _ => true
  | _ => false

/-- A host write waits at a home slice, so that later writes of the host wait behind it (R429). -/
def hostBlocked (s : State) : Bool := s.mem.kept.any isHostWrite

/-- A write into the host aperture comes after every earlier write of the host (R429). -/
def inHostOrder (off : Nat) (v : Word) (f : State → State) (s : State) : State :=
  if hostBlocked s then keep s (.hostAperture off v) else f s

/-! ## Queue 0 and its registers (R430) -/

/-- The administrative queue. -/
def adminQueue (s : State) : Queue := (s.cfe.queues.get 0).getD { elog := 4, part := 0, vec := 0, cring := 0, pring := 0, head := 0, tail := 0, stopped := false, commands := [], prog := [], sets := [], loaded := false, memory := [], busy := false, taken := 0, written := 0, unreported := 0, oldest := 0 }

/-- Queue 0 holds no outstanding command. -/
def adminIdle (s : State) : Bool :=
  let q := adminQueue s
  q.commands.isEmpty && decide (q.head = q.tail) && s.cfe.command.isNone && s.cfe.fetches.all fun f => decide (f.1 ≠ 0)

/-- A write of AQCRING, AQPRING or AQCFG takes effect: it resets head and tail; an ELOG outside 4 to 16 is
discarded (R430). [log 54: DESIGN CHOICE] -/
def applyConfig (s : State) (off : BitVec 12) (v : Word) : State :=
  let elog := if 4 ≤ field v 0 5 && decide (field v 0 5 ≤ 16) then field v 0 5 else s.cfe.aqElog
  let c := s.cfe
  let c := if off = 0x20 then { c with aqcring := v } else if off = 0x28 then { c with aqpring := v }
    else { c with aqVec := BitVec.ofNat 16 (field v 48 16), aqElog := elog }
  let q := { adminQueue s with cring := c.aqcring, pring := c.aqpring, vec := c.aqVec, elog := c.aqElog, head := 0, tail := 0 }
  setQueue { s with cfe := c } 0 (some q)

/-- The waiting writes take effect once queue 0 is idle. -/
def applyConfigs (s : State) : State :=
  if adminIdle s then s.cfe.aqPending.foldl (fun s w => applyConfig s w.1 w.2) { s with cfe := { s.cfe with aqPending := [] } } else s

/-- AQ_CONFIG_WRITE (R430). -/
def writeConfig (s : State) (off : BitVec 12) (v : Word) : State :=
  if off = 0x20 || off = 0x28 || off = 0x30 then applyConfigs { s with cfe := { s.cfe with aqPending := s.cfe.aqPending ++ [(off, v)] } } else s

/-- AQ_CONFIG_WRITE. -/
def execAqConfigWrite (off : BitVec 12) (v : Word) (s : State) : Host.Outcome State Fault Refusal :=
  .next (inHostOrder off.toNat v (writeConfig · off v) s)

/-- A write of ICOAL, CFEWD or PWRCAP (R430). -/
def writeRegister (s : State) (off : BitVec 12) (v : Word) : State :=
  if off = 0x08 then { s with cfe := { s.cfe with hold := min 1000 (field v 16 10), coalesce := BitVec.ofNat 8 (field v 0 8) } }
  else if off = 0x10 then { s with cfe := { s.cfe with cfewd := BitVec.ofNat 32 (field v 0 32) } }
  else if off = 0x18 then
    let w := field v 0 16
    if 1000 ≤ w && decide (w ≤ 3000) then { s with cfe := { s.cfe with pwrcap := w } } else s
  else s

/-- REGISTER_WRITE. -/
def execRegisterWrite (off : BitVec 12) (v : Word) (s : State) : Host.Outcome State Fault Refusal :=
  .next (inHostOrder off.toNat v (writeRegister · off v) s)

/-- A device register as the host reads it (R430). -/
def readRegister (s : State) (off : Nat) : Word :=
  match off with
  | 0x00 => at_ 24 s.cfe.bootReason.toNat ||| at_ 16 s.cfe.fails ||| at_ 0 s.cfe.bootState.toNat
  | 0x08 => at_ 16 s.cfe.hold ||| at_ 0 s.cfe.coalesce.toNat
  | 0x10 => at_ 0 s.cfe.cfewd.toNat
  | 0x18 => at_ 0 s.cfe.pwrcap
  | 0x20 => s.cfe.aqcring
  | 0x28 => s.cfe.aqpring
  | 0x30 => at_ 48 s.cfe.aqVec.toNat ||| at_ 0 s.cfe.aqElog
  | _ => 0

/-! ## The debug aperture (R371, R430) -/

/-- A debug register of the own cluster. -/
def readDebug (s : State) (off : Nat) : Word :=
  let d := s.dbg
  match off with
  | 0x00 => at_ 20 d.brken.toNat ||| at_ 16 d.step.toNat ||| at_ 12 d.trapen.toNat ||| at_ 2 (bnat d.xtin) ||| at_ 1 (bnat d.xtout) ||| at_ 0 (bnat d.en)
  | 0x08 => at_ 16 d.qfull.toNat ||| at_ 12 d.halted.toNat ||| at_ 8 d.astat.toNat ||| at_ 0 d.cause.toNat
  | 0x10 => d.dpc.get 0
  | 0x18 => d.dpc.get 1
  | 0x20 => d.dpc.get 2
  | 0x28 => d.dpc.get 3
  | 0x38 => d.acmd
  | 0x40 => d.adata
  | _ => 0

/-- A write of DMCTL (R371): its fields, then the resumes and halts it asks for. -/
def writeDmctl (s : State) (v : Word) : State :=
  let s := { s with dbg := { s.dbg with
    brken := BitVec.ofNat 4 (field v 20 4), step := BitVec.ofNat 4 (field v 16 4), trapen := BitVec.ofNat 4 (field v 12 4),
    xtin := bit v 2, xtout := bit v 1, en := bit v 0 } }
  let s := if field v 24 4 = 0 then s else resumeRequest { s with own := { s.own with turn := .core } } (BitVec.ofNat 4 (field v 24 4))
  if field v 28 4 = 0 then s else haltRequest s (BitVec.ofNat 4 (field v 28 4))

/-- A write of a debug register of the own cluster. -/
def writeDebug (s : State) (off : Nat) (v : Word) : State :=
  let dpc := fun (c : Nat) => if bit s.dbg.halted c then { s with dbg := { s.dbg with dpc := s.dbg.dpc.set c (v &&& at_ 0 (2 ^ 55 - 1)) } } else s
  match off with
  | 0x00 => writeDmctl s v
  | 0x10 => dpc 0
  | 0x18 => dpc 1
  | 0x20 => dpc 2
  | 0x28 => dpc 3
  | 0x30 => engineStep s v
  | 0x38 => writeAcmd s (v &&& ~~~ at_ 55 7)
  | 0x40 => { s with dbg := { s.dbg with adata := v } }
  | _ => s

/-! ## Doorbells and the reading of commands (R434) -/

/-- Commands of a queue that have not ended, those among them whose gang still runs (R435, R445). [log 54: DESIGN CHOICE] -/
def outstanding (s : State) (q : Nat) (x : Queue) (tail : Nat) : Nat :=
  (tail + 2 ^ 32 - x.head) % 2 ^ 32 + x.commands.length + bnat x.busy + (if q = 0 then bnat s.cfe.command.isSome else 0)
    + x.owed.countP fun i => !(x.busy && decide (i = x.taken))

/-- Read the next command of a queue, one HRD at a time. [log 54: DESIGN CHOICE] -/
def fetchCommand (s : State) (q : Nat) : State :=
  match s.cfe.queues.get q with
  | none => s
  | some x =>
    if x.stopped || decide (x.head = x.tail) || s.cfe.fetches.any (fun f => decide (f.1 = q)) then s
    else
      let r := continueRead s { tid := 0, addr := x.cring + word (64 * (x.head % 2 ^ x.elog)), want := 64, got := [], failed := false }
      { r.1 with cfe := { r.1.cfe with fetches := r.1.cfe.fetches ++ [(q, r.2)] } }

/-- A queue stops with QERR (R434, R437): the spec names no TAG and no value for the record. [log 54: DESIGN CHOICE] -/
def stopQueue (s : State) (q : Nat) (x : Queue) : State :=
  let d := draw (setQueue s q (some { x with stopped := true, tail := x.head })) (2 ^ 32)
  let e := draw d.2 (2 ^ 64)
  complete e.2 q (BitVec.ofNat 32 d.1) 2 (word e.1)

/-- DOORBELL (R434). -/
def doorbellRings (s : State) (q : Nat) (v : Word) : State :=
  match s.cfe.queues.get q with
  | none => s
  | some x =>
    if x.stopped then s
    else if field v 32 32 ≠ 0 || decide (2 ^ x.elog < outstanding s q x (field v 0 32)) then stopQueue s q x
    else fetchCommand (setQueue s q (some { x with tail := field v 0 32 })) q

/-- DOORBELL. -/
def execDoorbell (q : BitVec 8) (v : Word) (s : State) : Host.Outcome State Fault Refusal :=
  .next (inHostOrder (0x10000 + 8 * q.toNat) v (doorbellRings · q.toNat v) s)

/-! ## The aperture (R430) -/

/-- An 8-byte write into the host aperture. -/
def writeAperture (s : State) (a : Nat) (v : Word) : State :=
  if a < 0x1000 then
    let off := BitVec.ofNat 12 a
    if off = 0x20 || off = 0x28 || off = 0x30 then writeConfig s off v else writeRegister s off v
  else if 0x10000 ≤ a && decide (a < 0x10800) then doorbellRings s ((a - 0x10000) / 8) v
  else if 0x100000 ≤ a && decide (a < 0x100000 + 160 * 0x1000) && decide ((a - 0x100000) / 0x1000 = clusterOf s.cpu.coreId) then writeDebug s (a % 0x1000) v
  else s

/-- An 8-byte read of the host aperture; the debug modules of other clusters are not this model's, and
what they read as is free. [log 54: DESIGN CHOICE] -/
def readAperture (s : State) (a : Nat) : State × Word :=
  if a < 0x1000 then (s, readRegister s a)
  else if 0x100000 ≤ a && decide (a < 0x100000 + 160 * 0x1000) then
    if (a - 0x100000) / 0x1000 = clusterOf s.cpu.coreId then (s, readDebug s (a % 0x1000))
    else
      let d := draw s (2 ^ 64)
      (d.2, word d.1)
  else (s, 0)

/-- A write into the host aperture. -/
def apertureWrites (s : State) (p : HtlPacket) : State :=
  if apertureBad p 1 then writeAck s p 1 else writeAck (writeAperture s p.addr.toNat (wordOf p.body)) p 0

/-- AWR (R429, R430, R432). -/
def execAwr (p : HtlPacket) (s : State) : Host.Outcome State Fault Refusal :=
  .next (if s.cfe.hostDown then s else if hostBlocked s then keep s (.hostPacket p) else apertureWrites s p)

/-- ARD (R430, R432). -/
def execArd (p : HtlPacket) (s : State) : Host.Outcome State Fault Refusal :=
  .next (if s.cfe.hostDown then s
    else if apertureBad p 2 then readAnswer s p 1 []
    else
      let r := readAperture s p.addr.toNat
      readAnswer r.1 p 0 (toBytes 8 r.2.toNat))

/-! ## Global memory (R429, R432) -/

/-- The partition with an id. -/
def partitionOf (s : State) (id : BitVec 6) : Option Partition := s.cfe.partitions.find? fun p => decide (p.id = id)

/-- The leaf of an address under a partition's root in supervisor mode, or the status: XLATE or PERM. [log 54: DESIGN CHOICE] -/
def partLeaf (s : State) (p : Partition) (need : Need) (a : Nat) : Except Nat Leaf :=
  if a < 0x100000000 || decide (2 ^ 55 ≤ a) then .error 2
  else match walk s { part := p.id, xroot := p.xroot, keymask := p.keymask } a with
    | .error _ => .error 2
    | .ok l => if permits l p.id false need then .ok l else .error 3

/-- The home value of a byte for the host or the CFE: none for poison, and for a byte of another device that no
path reaches (R398). -/
def partByte (s : State) (l : Leaf) (a : Nat) : Option Byte :=
  let b := engineByte s (.glob l (leafPa l a))
  if b.poison then none else some b.val

/-- The places of a run of a partition's global memory, up to the first address that fails. -/
def partPlaces (s : State) (p : Partition) (need : Need) (a n : Nat) : List Dest :=
  (List.range n).foldr (fun i l => match partLeaf s p need (a + i) with
    | .error _ => []
    | .ok x => Dest.glob x (leafPa x (a + i)) :: l) []

/-- Lines of other devices that a read of the host or the CFE awaits (R204). -/
def partMissing (s : State) (p : Partition) (a n : Nat) : List FarLine := missingLines s (partPlaces s p .read a n)

/-- Read bytes of a partition's global memory as home values; a status otherwise. -/
def partRead (s : State) (p : Partition) (a n : Nat) : Except Nat (List Byte) :=
  (List.range n).foldl (fun acc i => match acc with
    | .error e => .error e
    | .ok bs => match partLeaf s p .read (a + i) with
      | .error e => .error e
      | .ok l => match partByte s l (a + i) with
        | some b => .ok (bs ++ [b])
        | none => .error 4) (.ok [])

/-- The lines that came for a read have been used. -/
def partUsed (s : State) (p : Partition) (a n : Nat) : State := dropLines s (remoteLines s (partPlaces s p .read a n))

/-- The places of a host write. -/
def hostPlaces (leaf : Word) (pa n : Nat) : List Dest := (List.range n).map fun i => Dest.glob { word := leaf, big := false } (pa + i)

/-- A host write waits: a core holds a word of it, replay names another access first, or the line of another
device that it writes a part of is not at hand (R390, R429). -/
def hostWaits (s : State) (tid : BitVec 16) (xs : List Dest) : Bool :=
  xs.any (isHeldPlace s) || engineHolds s (hostClass tid) xs || !(missingLines s xs).isEmpty

/-- A host write is performed like an engine write and acknowledged once its invalidations are (R429). -/
def performHostWrite (s : State) (xs : List Dest) (bytes : List Byte) (tid : BitVec 16) : State :=
  let s := dropLines (engineWrite s (hostClass tid) none (xs.zip bytes) []) (remoteLines s xs)
  sendHostAcks { s with cfe := { s.cfe with hostAcks := s.cfe.hostAcks ++ [tid] } }

/-- A host write that waited at the home slice is tried again: another copy of a line of another device is taken when
a word of it was held. -/
def hostGoesOn (s : State) (leaf : Word) (pa : Nat) (bytes : List Byte) (tid : BitVec 16) : State :=
  let xs := hostPlaces leaf pa bytes.length
  let miss := missingLines s xs
  if !miss.isEmpty then requestOnce s miss
  else if hostWaits s tid xs then dropLines s (remoteLines s xs)
  else performHostWrite (unkeep s (.hostWrite leaf pa bytes tid)) xs bytes tid

/-- MWR (R429, R432): it waits at the home slice while a word is held, as `wait` keeps it. [log 21: DEDUCED; 54: DESIGN CHOICE] -/
def hostWrites (wait : State → Kept → State) (s : State) (p : HtlPacket) : State :=
  if memoryBad p 3 then writeAck s p 1
  else match partitionOf s p.part with
    | none => writeAck s p 5
    | some q => match partLeaf s q .write p.addr.toNat with
      | .error e => writeAck s p e
      | .ok l =>
        let pa := leafPa l p.addr.toNat
        let xs := hostPlaces l.word pa p.body.length
        if hostWaits s p.tid xs then wait s (.hostWrite l.word pa p.body p.tid) else performHostWrite s xs p.body p.tid

/-- MWR. -/
def execMwr (p : HtlPacket) (s : State) : Host.Outcome State Fault Refusal :=
  .next (if s.cfe.hostDown then s else if hostBlocked s then keep s (.hostPacket p) else hostWrites keep s p)

/-- The next of the writes of the host that wait is this one. -/
def isHostTurn (s : State) (k : Kept) : Bool := decide (s.mem.kept.find? isHostWrite = some k)

/-- A packet keeps its place among what is kept when it waits again (R429). -/
def keepPlace (p : HtlPacket) (s : State) (k : Kept) : State :=
  { s with mem := { s.mem with kept := s.mem.kept.map fun x => if x = .hostPacket p then k else x } }

/-- The first host packet behind a host write that has been performed (R429). -/
def hostNext (s : State) (p : HtlPacket) : State :=
  if !(isHostTurn s (.hostPacket p)) then s
  else if p.type = 1 then apertureWrites (unkeep s (.hostPacket p)) p
  else unkeep (hostWrites (keepPlace p) s p) (.hostPacket p)

/-- The first write into the host aperture behind a host write that has been performed (R429). -/
def apertureNext (s : State) (off : Nat) (v : Word) : State :=
  if isHostTurn s (.hostAperture off v) then writeAperture (unkeep s (.hostAperture off v)) off v else s

/-- MRD (R429, R432): it awaits lines of other devices. -/
def hostReads (s : State) (p : HtlPacket) : State :=
  if memoryBad p 4 then readAnswer s p 1 []
  else match partitionOf s p.part with
    | none => readAnswer s p 5 []
    | some q =>
      let miss := partMissing s q p.addr.toNat p.len.toNat
      if !miss.isEmpty then requestOnce (if s.mem.kept.contains (.hostRead p) then s else keep s (.hostRead p)) miss
      else
        let s' := partUsed (unkeep s (.hostRead p)) q p.addr.toNat p.len.toNat
        match partRead s q p.addr.toNat p.len.toNat with
        | .error e => readAnswer s' p e []
        | .ok bs => readAnswer s' p 0 bs

/-- MRD. -/
def execMrd (p : HtlPacket) (s : State) : Host.Outcome State Fault Refusal := .next (if s.cfe.hostDown then s else hostReads s p)

/-! ## Completion of commands (R435 to R437) -/

/-- A word of a command. -/
def commandWord (c : List Byte) (i : Nat) : Word := dword c i

/-- OP of a command. -/
def commandOp (c : List Byte) : Nat := field (commandWord c 0) 56 8

/-- Queue 0 has taken one more command. -/
def countAdmin (s : State) (commands : List (List Byte)) : State :=
  let q := adminQueue s
  setQueue s 0 (some { q with commands := commands, taken := q.taken + 1 })

/-- Commands with a reserved OP or a reserved bit of word 0 complete with BADCMD, in minimal mode those other than
FWLOAD with NOTMIN (R436, R437, R438). -/
def refuseCommands (s : State) : List (List Byte) → State
  | [] => s
  | c :: rest =>
    let op := commandOp c
    if op = 0 || decide (14 < op) || decide (field (commandWord c 0) 32 24 ≠ 0) then
      refuseCommands (complete (countAdmin s rest) 0 (commandTag c) (if s.cfe.bootState = 2 && decide (op ≠ 13) then 12 else 1) 0) rest
    else s

/-- Refuse what stands at the head of queue 0, unless a command is in progress. -/
def settleAdmin (s : State) : State := applyConfigs (if s.cfe.command.isSome then s else refuseCommands s (adminQueue s).commands)

/-- A command read from its ring joins its queue, and the next is read (R434). -/
def commandArrives (s : State) (q : Nat) (c : List Byte) : State :=
  match s.cfe.queues.get q with
  | none => s
  | some x =>
    let s := setQueue s q (some { x with head := (x.head + 1) % 2 ^ 32, commands := x.commands ++ [c] })
    fetchCommand (if q = 0 then settleAdmin s else s) q

/-- CPL of the host (R432): an answer to an HRD of the CFE. A malformed one is discarded. -/
def answerArrives (s : State) (p : HtlPacket) : State :=
  if requestBad { p with stat := 0 } 0x10 false || decide (p.body.length ≠ p.len.toNat) || (decide (p.stat ≠ 0) && decide (p.len ≠ 0)) then s
  else
    match s.cfe.fetches.find? fun f => decide (f.2.tid = p.tid) with
    | some f =>
      if p.stat = 0 && decide (p.body.length ≠ nextPart f.2) then s
      else
        let s := { s with cfe := { s.cfe with fetches := s.cfe.fetches.erase f } }
        let r := takeAnswer f.2 p
        if r.failed then (match s.cfe.queues.get f.1 with
          | some x => stopQueue s f.1 x
          | none => s)
        else commandArrives s f.1 r.got
    | none =>
      match s.cfe.read with
      | some r =>
        if r.tid ≠ p.tid || r.failed || decide (nextPart r = 0) || (p.stat = 0 && decide (p.body.length ≠ nextPart r)) then s
        else
          let r := takeAnswer r p
          if r.failed || decide (r.want ≤ r.got.length) then { s with cfe := { s.cfe with read := some r } }
          else
            let c := continueRead s r
            { c.1 with cfe := { c.1.cfe with read := some c.2 } }
      | none => s

/-- CPL. -/
def execCpl (p : HtlPacket) (s : State) : Host.Outcome State Fault Refusal := .next (if s.cfe.hostDown then s else answerArrives s p)

/-- INTERRUPT_HOLD (R448): the oldest unreported completion has waited HOLD µs. -/
def holdEnds (s : State) (q : Nat) : State :=
  match s.cfe.queues.get q with
  | some x => if x.unreported ≠ 0 && decide (x.oldest + 1000 * s.cfe.hold ≤ s.cfe.age) then interrupt s q x else s
  | none => s

/-- INTERRUPT_HOLD. -/
def execInterruptHold (q : BitVec 8) (s : State) : Host.Outcome State Fault Refusal := .next (holdEnds s q.toNat)

/-- HOST_LINK_DOWN (R431): the link is reported down. [log 88: DESIGN CHOICE] -/
def execHostLinkDown (s : State) : Host.Outcome State Fault Refusal := .next { s with cfe := { s.cfe with hostDown := true } }

end Sys2Proof.Machine
end

