-- ==== Sys2Proof/Machine/Verify.lean ====
section
/-! DEFINITION. The verifier of bounded-profile programs (R413 to R415, R440). -/

namespace Sys2Proof.Machine

/-- The general register that an instruction of the profile writes. -/
def writtenReg (i : Instr) : Option Reg :=
  match i with
  | .beq _ _ _ | .bne _ _ _ | .blt _ _ _ | .bge _ _ _ | .bltu _ _ _ | .bgeu _ _ _ | .stb _ _ _ | .sth _ _ _ | .stw _ _ _ | .std _ _ _
    | .vbcast _ _ _ _ | .vld _ _ _ _ | .vst _ _ _ _ | .vgath _ _ _ _ _ | .vscat _ _ _ _ _ | .vlds _ _ _ _ _ | .vsts _ _ _ _ _
    | .pktemit _ _ | .pktfwd _ | .signal _ | .parkq _ | .launch _ _ => none
  | i => (namedRegs i).head?

/-- The column of R413 that a program is verified against. -/
def inColumn (queue : Bool) (i : Instr) : Bool := if queue then inProgram i else inKernel i

/-- The instruction ends the program (R414, R440). -/
def endsProgram (queue : Bool) (i : Instr) : Bool :=
  match i with
  | .jal d o => queue && decide (d = 0) && decide (o = 0)
  | .pktfwd _ | .pktdrop => !queue
  | _ => false

/-- The offset in bytes of a branch or jump (R82, R84). -/
def jumpOffset (i : Instr) : Option Int :=
  match i with
  | .beq _ _ o | .bne _ _ o | .blt _ _ o | .bge _ _ o | .bltu _ _ o | .bgeu _ _ o => some (2 * o.toInt)
  | .jal _ o => some (2 * o.toInt)
  | _ => none

/-- A LOOPB: its place, its target, its counter and its bound. -/
structure Loop where
  place : Nat
  target : Int
  counter : Reg
  bound : Nat

/-- The LOOPB at a place. -/
def loopAt (p : Nat) (i : Instr) : Option Loop :=
  match i with
  | .loopb d n o => some { place := p, target := 4 * (p : Int) - 2 * o.toNat, counter := d, bound := n.toNat + 1 }
  | _ => none

/-- The decoded words of a program, none for a word that decodes to no instruction. -/
def decodedWords (code : List (BitVec 32)) : List (Option Instr) :=
  code.map fun w => if w.toNat % 4 = 3 then (decode w.toNat).toOption else none

/-- Reason 2: a word that is in neither column, decodes ILLEGAL or holds a reserved rm3. [log 48: DESIGN CHOICE] -/
def badWord (x : Option Instr) : Bool :=
  match x with
  | none => true
  | some i => !i.wellFormed || !(inKernel i || inProgram i) || (roundingOf i).any fun m => decide (m = 5) || decide (m = 6)

/-- The first place for which a test holds. -/
def firstPlace (is : List Instr) (test : Nat → Instr → Bool) : Option Nat :=
  (((List.range is.length).zip is).find? fun x => test x.1 x.2).map (·.1)

/-- Reason 3: a backward or out-of-program branch or jump, or a target that is no multiple of 4. -/
def badJump (queue : Bool) (n p : Nat) (i : Instr) : Bool :=
  if endsProgram queue i then false
  else match jumpOffset i, loopAt p i with
    | some o, _ => decide (o ≤ 0) || decide (o % 4 ≠ 0) || decide (4 * (n : Int) ≤ 4 * p + o)
    | none, some l => decide (l.target < 0) || decide (l.target % 4 ≠ 0)
    | none, none => false

/-- Reason 4: a LOOPB that breaks R414. -/
def badLoop (is : List Instr) (loops : List Loop) (l : Loop) : Bool :=
  let t := (l.target / 4).toNat
  decide (l.counter = 0) || ((is.drop t).take (l.place - t)).any (fun i => decide (writtenReg i = some l.counter))
    || loops.any fun m => decide (m.target < l.target) && decide (l.target ≤ 4 * (m.place : Int)) && decide (m.place < l.place)

/-- The places that control can reach from each place going forward. -/
abbrev Edges := List (List Nat)

/-- The edges out of a place. -/
def edgesAt (es : Edges) (p : Nat) : List Nat := es.getD p []

/-- The forward edges of an instruction. -/
def plainEdges (queue : Bool) (p : Nat) (i : Instr) : List Nat :=
  if endsProgram queue i then []
  else match i, jumpOffset i with
    | .jal _ _, some o => [((p + o / 4).toNat)]
    | _, some o => [p + 1, (p + o / 4).toNat]
    | _, none => [p + 1]

/-- All forward edges of a program. -/
def allEdges (queue : Bool) (is : List Instr) : Edges := ((List.range is.length).zip is).map fun x => plainEdges queue x.1 x.2

/-- The body of a LOOPB as a path counts it (R415): its places, and what a path through it counts. -/
structure Body where
  first : Nat
  last : Nat
  cost : Nat

/-- The places of a body. -/
def Body.places (b : Body) : List Nat := (List.range (b.last + 1 - b.first)).map (b.first + ·)

/-- Raise the longest count before a place; counts are kept plus one. -/
def raiseTo (t : Table Nat) (p n : Nat) : Table Nat := t.set p (max (t.get p) (n + 1))

/-- The longest count of a path from some places within a range, forward only: a body counts whole as soon as a path
takes any of its instructions (R415). [log 49: DEDUCED] -/
def longest (es : Edges) (weight : Nat → Nat) (bodies : List Body) (lo hi : Nat) (starts : List Nat) : Nat :=
  let go := fun (acc : Table Nat × Nat) (count : Nat) (out : List Nat) => (out.foldl (fun t q => raiseTo t q count) acc.1, max acc.2 count)
  ((List.range (hi + 1 - lo)).foldl (fun acc k =>
    let p := lo + k
    match bodies.find? fun b => decide (b.first ≤ p) && decide (p ≤ b.last) with
    | some b =>
      let d := b.places.foldl (fun m q => max m (acc.1.get q)) 0
      if b.first ≠ p || decide (d = 0) then acc
      else go acc (d - 1 + b.cost) ((b.places.flatMap (edgesAt es)).filter fun q => decide (b.last < q))
    | none => if acc.1.get p = 0 then acc else go acc (acc.1.get p - 1 + weight p) (edgesAt es p))
    (starts.foldl (fun t q => raiseTo t q 0) ([] : Table Nat), 0)).2

/-- Places reached going forward from those reached already. -/
def reachForward (es : Edges) (t : Table Bool) : Table Bool :=
  (List.range es.length).foldl (fun (t : Table Bool) p => if t.get p then (edgesAt es p).foldl (fun (t : Table Bool) q => t.set q true) t else t) t

/-- Places reached going forward and, at most `n` times, back from a LOOPB to its target. -/
def reachBack (es : Edges) (loops : List Loop) : Nat → Table Bool → Table Bool
  | 0, t => reachForward es t
  | n + 1, t =>
    let t := reachForward es t
    reachBack es loops n (loops.foldl (fun (t : Table Bool) l => if t.get l.place then t.set (l.target / 4).toNat true else t) t)

/-- The places that control reaches from some places. -/
def reachedPlaces (es : Edges) (loops : List Loop) (starts : List Nat) : Table Bool :=
  reachBack es loops loops.length (starts.foldl (fun (t : Table Bool) q => t.set q true) ([] : Table Bool))

/-- The edges out of the places that control reaches. -/
def liveEdges (es : Edges) (t : Table Bool) : Edges := ((List.range es.length).zip es).map fun x => if t.get x.1 then x.2 else []

/-- The outermost bodies, each counted its bound of times with its own worst path, inner ones first (R415): the
longest of the paths within it, from whichever of its places that control reaches. [log 49: DEDUCED] -/
def bodiesOf (es : Edges) (weight : Nat → Nat) (reached : Table Bool) (loops : List Loop) : List Body :=
  loops.foldl (fun bs l =>
    let t := (l.target / 4).toNat
    let places := ((List.range (l.place + 1 - t)).map (t + ·)).filter reached.get
    bs.filter (fun b => decide (b.first < t) || decide (l.place < b.first)) ++ [{ first := t, last := l.place, cost := l.bound * longest es weight bs t l.place places }]) []

/-- The longest count of a path from an entry to an end of the program. [log 49: DEDUCED] -/
def worstFrom (is : List Instr) (es : Edges) (weight : Instr → Nat) (loops : List Loop) (entry : Nat) : Nat :=
  let w := fun (p : Nat) => ((is[p]?).map weight).getD 0
  let t := reachedPlaces es loops [entry]
  let es := liveEdges es t
  longest es w (bodiesOf es w t loops) 0 (is.length - 1) [entry]

/-- Reason 5: the last place of a path that runs off the end of the program. -/
def fallsOff (is : List Instr) (es : Edges) (loops : List Loop) (entries : List Nat) : Option Nat :=
  let t := reachedPlaces es loops entries
  (List.range is.length).find? fun p => t.get p && (edgesAt es p).any fun x => decide (is.length ≤ x)

/-- The weight that counts instructions, and the one that counts packets. -/
def one (_ : Instr) : Nat := 1
/-- PKTEMIT counts one packet. -/
def emits (i : Instr) : Nat :=
  match i with
  | .pktemit _ _ => 1
  | _ => 0

/-- What the verifier finds (R415): the first failing reason with the byte offset of its instruction from
the first word after the header, or the counts. [log 48: DESIGN CHOICE] -/
inductive Verdict where
  | fails (reason offset : Nat)
  | passes (counts : List Nat) (packets : Nat)
  deriving DecidableEq, Repr

/-- The verifier of a program with its entries, in words (R413 to R415, R440). [log 48: DESIGN CHOICE] -/
def verify (queue : Bool) (code : List (BitVec 32)) (entries : List Nat) : Verdict :=
  let words := decodedWords code
  match (List.range words.length).find? fun p => badWord ((words[p]?).join) with
  | some p => .fails 2 (4 * p)
  | none =>
    let is := words.filterMap id
    let loops := ((List.range is.length).zip is).filterMap fun x => loopAt x.1 x.2
    match firstPlace is (badJump queue is.length) with
    | some p => .fails 3 (4 * p)
    | none =>
      match loops.find? (badLoop is loops) with
      | some l => .fails 4 (4 * l.place)
      | none =>
        let es := allEdges queue is
        match fallsOff is es loops entries with
        | some p => .fails 5 (4 * p)
        | none =>
          let counts := entries.map (worstFrom is es one loops)
          match (entries.zip counts).find? fun x => decide ((if queue then 4096 else 512) < x.2) with
          | some x => .fails 6 (4 * x.1)
          | none =>
            let packets := entries.map (worstFrom is es emits loops)
            match (entries.zip packets).find? fun x => !queue && decide (8 < x.2) with
            | some x => .fails 7 (4 * x.1)
            | none =>
              match firstPlace is fun _ i => !(inColumn queue i) with
              | some p => .fails 8 (4 * p)
              | none => .passes counts (packets.foldl max 0)

end Sys2Proof.Machine
end

