-- ==== Sys2Proof/Machine/Admin.lean ====
section
/-! DEFINITION. The administrative commands of queue 0: queues, partitions and their slices, queue
programs, flow classes, fences, retired ranks, rings, Peat streams, watchpoints, the manifest and the
firmware image (R225, R378, R389, R392, R423, R425, R433 to R440, R445, R450). -/

namespace Sys2Proof.Machine

/-! ## The command in progress -/

/-- The command of queue 0 that is in progress, or its next one, when its OP is the given one. -/
def takeAdmin (s : State) (op : Nat) : Option (State × List Byte) :=
  match s.cfe.command with
  | some c => if commandOp c = op then some (s, c) else none
  | none =>
    match (adminQueue s).commands with
    | c :: rest =>
      if commandOp c = op then
        some (setQueue { s with cfe := { s.cfe with command := some c, read := none } } 0 (some { adminQueue s with commands := rest }), c)
      else none
    | [] => none

/-- The completion of the administrative command in progress (R435). -/
def finishAdmin (s : State) (status : Nat) (value : Word) : State :=
  let tag := commandTag (s.cfe.command.getD [])
  let s := { s with cfe := { s.cfe with command := none, read := none } }
  settleAdmin (complete (countAdmin s (adminQueue s).commands) 0 tag status value)

/-- Completed with OK and value 0. -/
def adminOk (s : State) : State := finishAdmin s 0 0
/-- BADCMD (R437): nothing has changed. -/
def badCommand (s : State) : State := finishAdmin s 1 0
/-- CONFLICT (R437). -/
def conflict (s : State) : State := finishAdmin s 9 0
/-- VERIFY with reason :: offset (R437). [log 55: DESIGN CHOICE] -/
def rejectProgram (s : State) (reason offset : Nat) : State := finishAdmin s 8 (at_ 56 reason ||| at_ 0 offset)

/-- Run an administrative command: a reserved bit of an operand word is BADCMD, in minimal mode all but
FWLOAD complete with NOTMIN, and outside it FWLOAD does (R438). `masks` are the listed bits of words 1
to 7. [log 55: DESIGN CHOICE] -/
def admin (op : Nat) (masks : List Word) (body : List Byte → State → State) (s : State) : State :=
  match takeAdmin s op with
  | none => s
  | some (s, c) =>
    if decide (op = 0x0D) != decide (s.cfe.bootState = 2) then finishAdmin s 12 0
    else if (List.range 7).any fun i => decide (commandWord c (i + 1) &&& ~~~ (masks.getD i 0) ≠ 0) then badCommand s
    else body c s

/-- Every bit of a word. -/
def everyBit : Word := ~~~ 0
/-- A mask of a field. -/
def listedBits (lo n : Nat) : Word := at_ lo (2 ^ n - 1)

/-- The bytes that the command has read from host memory, `n` at first; it goes on once they are there.
A failed read completes with HOSTERR (R437). -/
def withHostBytes (s : State) (addr : Word) (n : Nat) (k : List Byte → State) : State :=
  match s.cfe.read with
  | none => startHostRead s addr n
  | some r =>
    if r.failed then finishAdmin s 11 0
    else if r.got.length < r.want then s
    else k r.got

/-- Read on, up to `n` bytes in all. -/
def readMore (s : State) (n : Nat) : State :=
  match s.cfe.read with
  | none => s
  | some r =>
    let c := continueRead s { r with want := n }
    { c.1 with cfe := { c.1.cfe with read := some c.2 } }

/-- The queue of an operand, 1 to 255. -/
def userQueue (s : State) (q : Nat) : Option Queue := if q = 0 then none else s.cfe.queues.get q

/-! ## Queues and their programs (R433, R436, R440) -/

/-- The 32-bit words of a run of bytes. -/
def halvesOf (bs : List Byte) : List (BitVec 32) :=
  (List.range (bs.length / 4)).map fun i => BitVec.ofNat 32 (ofBytes ((bs.drop (4 * i)).take 4))

/-- Length in words of a queue program by its header, none for an invalid header (R440). -/
def programLength (h : List Byte) : Option Nat :=
  let w := dword h 0
  let n := field w 0 16
  if field w 56 8 = 0xB6 && decide (field w 20 36 = 0) && decide (field w 16 4 ≤ 8) && decide (1 ≤ n) && decide (n ≤ 4096) then some n else none

/-- Read and verify a queue program, then go on with its words and its signals. [log 55: DESIGN CHOICE] -/
def withProgram (s : State) (addr : Word) (k : List (BitVec 32) → List (BitVec 8) → State) : State :=
  withHostBytes s addr 16 fun h =>
    match programLength h with
    | none => rejectProgram s 1 0
    | some n =>
      if h.length < 16 + 4 * n then readMore s (16 + 4 * n)
      else
        let code := halvesOf (h.drop 16)
        match verify true code [0] with
        | .fails reason offset => rejectProgram s reason offset
        | .passes _ _ => k code ((h.drop 8).take (field (dword h 0) 16 4))

/-- QCREATE (R436, R438). -/
def createQueue (c : List Byte) (s : State) : State :=
  let w := commandWord c 1
  let q := field w 0 8
  let elog := field w 8 5
  let part := BitVec.ofNat 6 (field w 16 6)
  let cring := commandWord c 2
  let pring := commandWord c 3
  if q = 0 || (s.cfe.queues.get q).isSome || decide (elog < 4) || decide (16 < elog) || (partitionOf s part).isNone
      || decide (cring.toNat % 64 ≠ 0) || decide (pring.toNat % 16 ≠ 0) then badCommand s
  else withProgram s (commandWord c 4) fun code sets =>
    adminOk (setQueue s q (some { elog := elog, part := part, vec := BitVec.ofNat 16 (field w 32 16), cring := cring, pring := pring, head := 0, tail := 0, stopped := false, commands := [], prog := code, sets := sets, loaded := true, memory := [], busy := false, taken := 0, written := 0, unreported := 0, oldest := 0 }))

/-- QCREATE. -/
def execQcreate (s : State) : Host.Outcome State Fault Refusal :=
  .next (admin 0x01 [listedBits 0 13 ||| listedBits 16 6 ||| listedBits 32 16, everyBit, everyBit, everyBit] createQueue s)

/-- A waiting or running invocation of a queue is ended without a record of its own (R436). -/
def endRuns (s : State) (q : Nat) : State :=
  let slots := (List.range 32).foldl (fun (t : Table (Option QpRun)) n => match t.get n with
    | some r => if r.queue = q then t.set n none else t
    | none => t) s.cfe.slots
  { s with cfe := { s.cfe with slots := slots, waiters := s.cfe.waiters.filter fun w => decide (w.run.queue ≠ q), fetches := s.cfe.fetches.filter fun f => decide (f.1 ≠ q) } }

/-- QDESTROY (R436, R442). -/
def destroyQueue (c : List Byte) (s : State) : State :=
  let q := field (commandWord c 1) 0 8
  if (userQueue s q).isNone then badCommand s else adminOk (setQueue (endRuns s q) q none)

/-- QDESTROY. -/
def execQdestroy (s : State) : Host.Outcome State Fault Refusal := .next (admin 0x02 [listedBits 0 8] destroyQueue s)

/-- LOADQP (R436): an invocation that runs ends under the old program. -/
def loadProgram (c : List Byte) (s : State) : State :=
  let q := field (commandWord c 1) 0 8
  match userQueue s q with
  | none => badCommand s
  | some x => withProgram s (commandWord c 2) fun code sets => adminOk (setQueue s q (some { x with prog := code, sets := sets, loaded := true }))

/-- LOADQP. -/
def execLoadqp (s : State) : Host.Outcome State Fault Refusal := .next (admin 0x05 [listedBits 0 8, everyBit] loadProgram s)

/-! ## Partitions (R357 to R359, R438, R439) -/

/-- A rectangle of R14 with its reserved bits and SYS zero and its corners in order. -/
def rectUsable (r : Word) : Bool :=
  decide (field r 0 5 ≤ field r 10 5) && decide (field r 5 5 ≤ field r 15 5) && decide (field r 15 5 ≤ 19)
    && decide (field r 20 4 = 0) && decide (field r 32 31 = 0)

/-- Two rectangles share a core. -/
def rectsMeet (a b : Word) : Bool :=
  decide (field a 24 8 = field b 24 8) && decide (field a 0 5 ≤ field b 10 5) && decide (field b 0 5 ≤ field a 10 5)
    && decide (field a 5 5 ≤ field b 15 5) && decide (field b 5 5 ≤ field a 15 5)

/-- The rectangles of a list of PRECT images that are in use. -/
def usedRects (l : List Word) : List Word := l.filter fun r => bit r 63

/-- A region entry of the block that breaks R439. -/
def regionBad (e : Word) : Bool :=
  bit e 63 && (decide (field e 60 2 ≠ 0) || decide (field e 0 29 ≠ 0) || decide (field e 44 16 = 0) || decide (2 ^ 15 < field e 29 15 + field e 44 16))

/-- The regions that an entry names. -/
def entryRegions (e : Word) : List Nat := if bit e 63 then (List.range (field e 44 16)).map fun i => field e 29 15 + i else []

/-- The entries, PRECTs of a partition block. -/
def blockRects (b : List Byte) : List Word := (List.range 8).map fun i => dword b (8 + i)
/-- The region entries. -/
def blockRegions (b : List Byte) : List Word := (List.range 16).map fun i => dword b (16 + i)

/-- A partition block with a reserved bit set or a field out of range (R439). [log 55: DESIGN CHOICE] -/
def blockBad (part : Nat) (b : List Byte) : Bool :=
  let id := dword b 0
  decide (field id 0 6 ≠ part) || decide (field id 24 22 ≠ 0) || (bit id 47 && decide (9 < field id 10 4))
    || decide (field (dword b 1) 48 16 ≠ 0) || decide (dword b 3 &&& ~~~ 0xFFFFFFF0001 ≠ 0)
    || ((List.range 4).any fun i => decide (dword b (4 + i) ≠ 0))
    || ((blockRects b).any fun r => decide (r &&& ~~~ precMask ≠ 0) || (bit r 63 && !(rectUsable (r &&& listedBits 0 63))))
    || (blockRegions b).any regionBad

/-- PCREATE conflicts with what exists (R439). [log 56: DESIGN CHOICE] -/
def blockConflicts (s : State) (part : BitVec 6) (b : List Byte) : Bool :=
  let others := s.cfe.partitions.filter fun p => decide (p.id ≠ part)
  ((blockRegions b).any fun e => (entryRegions e).any fun r => match s.cfe.owners.get r with
    | some o => decide (o ≠ part) && others.any fun p => decide (p.id = o)
    | none => false)
    || (others.any fun p => (usedRects p.prect).any fun x => (usedRects (blockRects b)).any fun y => rectsMeet x y)
    || s.cfe.gangs.any fun g => decide (g.part = part)

/-- The region-owner table with a partition's regions (R358, R439). [log 69: DEDUCED] -/
def ownRegions (t : Table (Option (BitVec 6))) (part : BitVec 6) (b : List Byte) : Table (Option (BitVec 6)) :=
  let kept := t.filter fun e => decide (e.2 ≠ some part)
  (blockRegions b).foldl (fun t e => (entryRegions e).foldl (fun (t : Table (Option (BitVec 6))) r => t.set r (if bit e 62 then none else some part)) t) kept

/-- The registers that the CFE writes for a partition on its cores and its supervisor core (R357, R388). -/
def writePartition (s : State) (p : Partition) : State :=
  let mine := (usedRects p.prect).any (fun r => inRect r s.cpu.coreId) || (bit p.partid 47 && decide (field p.partid 6 18 = s.cpu.coreId.toNat))
  if mine && !s.cpu.away then
    { s with cpu := { s.cpu with
        partid := p.partid, fhand := p.fhand, keymask := p.keymask, xroot := p.xroot, peatcfg := peatWord p,
        prect := (List.range 8).foldl (fun (t : Table Word) i => t.set i (p.prect.getD i 0 &&& precMask)) [] } }
  else s

/-- Put a partition in the place of the one with its id. [log 56: DESIGN CHOICE] -/
def putPartition (s : State) (p : Partition) : State :=
  { s with cfe := { s.cfe with partitions := (s.cfe.partitions.filter fun q => decide (q.id ≠ p.id)) ++ [p] } }

/-- PCREATE (R439). -/
def createPartition (c : List Byte) (s : State) : State :=
  let part := BitVec.ofNat 6 (field (commandWord c 1) 0 6)
  if (commandWord c 2).toNat % 64 ≠ 0 then badCommand s
  else withHostBytes s (commandWord c 2) 256 fun b =>
    if blockBad part.toNat b then badCommand s
    else if blockConflicts s part b then conflict s
    else
      let old := (partitionOf s part).getD { id := part, partid := 0, fhand := 0, keymask := 0, xroot := 0, prect := [], slat := 0, rlog := 0, sliceOn := false, area := 0, lvkeep := 0xFFFFFF, lmkeep := 0xFFFF, peat := 0, replim := 0, logVa := 0, logSize := 0 }
      let p := { old with partid := dword b 0, fhand := dword b 1, keymask := dword b 2, xroot := dword b 3, prect := blockRects b }
      let s := putPartition s p
      adminOk (writePartition { s with cfe := { s.cfe with owners := ownRegions s.cfe.owners part b } } p)

/-- PCREATE. -/
def execPcreate (s : State) : Host.Outcome State Fault Refusal := .next (admin 0x03 [listedBits 0 6, everyBit] createPartition s)

/-- SLAT, SLCFG and SLKEEP of this core from its resident partition (R359, R438). -/
def writeSlice (s : State) (p : Partition) : State :=
  match contextArea s p.id with
  | none => s
  | some area =>
    if isResident s p.id then
      { s with cpu := { s.cpu with
          slat := p.slat,
          slcfg := at_ 16 (area / 65536 % 2 ^ 28) ||| at_ 1 p.rlog.toNat ||| at_ 0 (bnat p.sliceOn),
          slkeep := at_ 16 p.lvkeep.toNat ||| zextField p.lmkeep } }
    else s

/-- PSLICE (R438). -/
def slicePartition (c : List Byte) (s : State) : State :=
  let w := commandWord c 1
  let k := commandWord c 4
  match partitionOf s (BitVec.ofNat 6 (field w 0 6)) with
  | none => badCommand s
  | some p =>
    let p := { p with
      slat := commandWord c 2, rlog := BitVec.ofNat 3 (field w 8 3), sliceOn := bit w 16,
      area := BitVec.ofNat 44 (field (commandWord c 3) 21 23 * 2 ^ 21), lvkeep := BitVec.ofNat 24 (field k 0 24), lmkeep := BitVec.ofNat 16 (field k 32 16) }
    adminOk (writeSlice (putPartition s p) p)

/-- PSLICE. -/
def execPslice (s : State) : Host.Outcome State Fault Refusal :=
  .next (admin 0x04 [listedBits 0 6 ||| listedBits 8 3 ||| listedBits 16 1, everyBit, listedBits 21 23, listedBits 0 24 ||| listedBits 32 16] slicePartition s)

/-! ## Flow classes (R423, R425) -/

/-- A flow-class record that breaks R425, its PART, OWNER included. -/
def classBad (s : State) (r : List Byte) : Bool :=
  let w := dword r 0
  let owner := dword r 4
  decide (field w 56 8 ≠ 0xF7) || decide (field w 48 8 = 0) || decide (field w 37 5 = 0) || decide (16 < field w 37 5)
    || decide (5 < field w 34 3) || decide (field w 32 2 ≠ 0) || decide (field (dword r 1) 48 16 ≠ 0)
    || decide (field (dword r 2) 55 9 ≠ 0) || decide (field (dword r 3) 55 9 ≠ 0) || !(idWellFormed owner)
    || decide (field (dword r 5) 48 16 ≠ 0) || decide (field (dword r 6) 36 28 ≠ 0) || decide (dword r 7 ≠ 0)
    || (match partitionOf s (BitVec.ofNat 6 (field w 42 6)) with
      | none => true
      | some p => !((usedRects p.prect).any fun x => inRect x (coreOf owner)))

/-- The length in words and the timeout entry of the kernel at an address of a partition (R425); none for no valid
header. -/
def kernelHeader (s : State) (p : Partition) (a : Nat) : Option (Nat × Nat) :=
  match partRead s p a 8 with
  | .error _ => none
  | .ok h =>
    let w := wordOf h
    let n := field w 0 16
    let toff := field w 16 16
    if field w 56 8 ≠ 0xB5 || decide (field w 32 24 ≠ 0) || decide (n = 0) || decide (4096 < n) || decide (n ≤ toff) then none else some (n, toff)

/-- The kernel at an address of a partition: its words and its timeout entry. -/
def readKernel (s : State) (p : Partition) (a : Nat) : Option (List (BitVec 32) × Nat) :=
  match kernelHeader s p a with
  | none => none
  | some (n, toff) => match partRead s p (a + 8) (4 * n) with
    | .error _ => none
    | .ok bs => some (halvesOf bs, toff)

/-- The table image of a flow class: its bytes and poisoned granules, or nothing where it cannot be read. -/
def readTable (s : State) (p : Partition) (a n : Nat) : Option (Table Byte × Table Bool) :=
  let put := fun (acc : Option (Table Byte × Table Bool)) (i : Nat) => match acc, partLeaf s p .read (a + i) with
    | some t, .ok l => match partByte s l (a + i) with
      | some b => some (t.1.set i b, t.2)
      | none => some (t.1, t.2.set (i / 8) true)
    | _, _ => none
  (List.range n).foldl put (some ([], []))

/-- The verifier's counts as BUDGET holds them (R425). -/
def budgetBytes (counts : List Nat) (packets : Nat) : List Byte :=
  toBytes 8 (at_ 0 (counts.getD 0 0) ||| at_ 16 (counts.getD 1 0) ||| at_ 32 packets).toNat

/-- The classification entry at every switch (R423). -/
def installEntry (s : State) (part : BitVec 6) (mat : BitVec 48) (cls : BitVec 8) : State :=
  { s with fab := { s.fab with classes := (s.fab.classes.filter fun e => !(decide (e.1 = part) && decide (e.2.2 = cls))) ++ [(part, mat, cls)] } }

/-- The kernel, the table and the record quota at this device's switch (R423). -/
def installClass (s : State) (c : FlowClass) : State :=
  let same := fun (x : FlowClass) => decide (x.part = c.part) && decide (x.cls = c.cls)
  let keeps := s.fab.loaded.all fun x => !(same x) || decide (x.recs = c.recs)
  let mine := fun (r : FlowRecord) => decide (r.key.part = c.part) && decide (r.key.cls = c.cls)
  let s := { s with fab := { s.fab with loaded := (s.fab.loaded.filter fun x => !(same x)) ++ [c] } }
  if keeps then s else withRecords s (s.fab.records.filter fun r => !(mine r))

/-- LOADFC with its record, its kernel and its table at hand. [log 55: DESIGN CHOICE] -/
def verifyClass (dev : Nat) (rec_ : Word) (r : List Byte) (kernel : Option (List (BitVec 32) × Nat))
    (image : Option (Table Byte × Table Bool)) (s : State) : State :=
  let w := dword r 0
  let part := BitVec.ofNat 6 (field w 42 6)
  let cls := BitVec.ofNat 8 (field w 48 8)
  match kernel with
  | none => rejectProgram s 1 0
  | some (code, toff) =>
    match verify false code (if toff = 0 then [0] else [0, toff]) with
    | .fails reason offset => rejectProgram s reason offset
    | .passes counts packets =>
      match image with
      | none => badCommand s
      | some (table, bad) =>
        let c : FlowClass := { part := part, cls := cls, recs := field w 37 5, fidw := field w 34 3, tmo := field w 16 16, ohand := BitVec.ofNat 48 (dword r 5).toNat, owner := coreOf (dword r 4), code := code, timeout := toff, table := table, tablePoison := bad, tablen := field w 0 16 }
        let s := installEntry s part (BitVec.ofNat 48 (dword r 1).toNat) cls
        let s := if dev = ownDev s then installClass s c else s
        adminOk (hostWrite s (rec_ + 48) (budgetBytes counts packets))

/-- LOADFC with its record read (R423, R425): it awaits the lines of the kernel and the table that other devices
hold. [log 55: DESIGN CHOICE] -/
def loadClassRecord (dev : Nat) (rec_ : Word) (r : List Byte) (s : State) : State :=
  let w := dword r 0
  let part := BitVec.ofNat 6 (field w 42 6)
  let cls := BitVec.ofNat 8 (field w 48 8)
  let mat := BitVec.ofNat 48 (dword r 1).toNat
  if classBad s r then badCommand s
  else if s.fab.classes.any fun e => decide (e.1 = part) && decide (e.2.1 = mat) && decide (e.2.2 ≠ cls) then conflict s
  else
    match partitionOf s part with
    | none => badCommand s
    | some p =>
      let ka := (dword r 2).toNat
      let ta := (dword r 3).toNat
      let len := 8 + 4 * ((kernelHeader s p ka).map (·.1)).getD 0
      let miss := (partMissing s p ka len ++ partMissing s p ta (field w 0 16)).eraseDups
      if !miss.isEmpty then requestOnce s miss
      else verifyClass dev rec_ r (readKernel s p ka) (readTable s p ta (field w 0 16)) (partUsed (partUsed s p ka len) p ta (field w 0 16))

/-- LOADFC (R436). -/
def loadClass (c : List Byte) (s : State) : State :=
  let dev := field (commandWord c 1) 0 8
  if !(inDomain s dev) then badCommand s
  else withHostBytes s (commandWord c 2) 64 fun r => loadClassRecord dev (commandWord c 2) r s

/-- LOADFC. -/
def execLoadfc (s : State) : Host.Outcome State Fault Refusal := .next (admin 0x06 [listedBits 0 8, everyBit] loadClass s)

/-! ## Fences and retired ranks (R155, R225, R445) -/

/-- The flips of a barrier that are on their way reach a rank before it retires. [log 31: DESIGN CHOICE] -/
def takeFlips (s : State) (n : BitVec 5) : State :=
  (s.net.flips.filter fun f => decide (f.n = n) && decide (f.epoch = (barrier s n).epoch)).foldl applyFlip s

/-- Barrier n at this core as its rank retires: the drop, the arrival not yet made, which follow its own operations
to the root, and the armed successor (R155). -/
def retireOwnBarrier (s : State) (n : Nat) : State :=
  let k := BitVec.ofNat 5 n
  let s := takeFlips s k
  let b := barrier s k
  let s :=
    if b.active && b.reg then
      let s := if b.pend = 2 then s else toRoot s (.drop k b.epoch)
      let s := if b.arr then s else toRoot s (.arrive k b.expect b.epoch)
      if b.arm then decrement s b.succ.toNat 1 0 else s
    else s
  setBarrier s k default

/-- Barrier n at the root as another core's rank retires: whether that core takes part and has arrived
is its own state, and free. [log 32: DESIGN CHOICE] -/
def retireOtherBarrier (s : State) (n : Nat) : State :=
  let k := BitVec.ofNat 5 n
  let r := rootOf s k
  if !r.active then s
  else
    let d := draw s 3
    match d.1 with
    | 0 => d.2
    | 1 => rootTakes d.2 false (.drop k r.epoch)
    | _ => rootTakes (rootTakes d.2 false (.drop k r.epoch)) false (.arrive k (BitVec.ofNat 12 r.expect) r.epoch)

/-- The core of a rank of a rectangle (R156). -/
def rankCore (rect : Word) (rank : Nat) : BitVec 18 :=
  let w := field rect 10 5 + 1 - field rect 0 5
  let x := field rect 0 5 + rank % w
  let y := field rect 5 5 + rank / w
  BitVec.ofNat 18 (field rect 24 8 * 1024 + (x / 16 + 2 * (y / 10)) * 256 + y % 10 * 16 + x % 16)

/-- Ranks of a rectangle. -/
def rankCount (rect : Word) : Nat := (field rect 10 5 + 1 - field rect 0 5) * (field rect 15 5 + 1 - field rect 5 5)

/-- The barriers of a gang at this core's root belong to the gang that the core is a member of. -/
def isOwnGang (s : State) (g : Gang) : Bool := s.cpu.member && inRect g.rect s.cpu.coreId && decide (zextField g.id = constant s 194)

/-- The saved context of a gang's partition, when the partition is away and its context is that of a rank (R365, R445). -/
def savedRank (s : State) (g : Gang) : Option Context :=
  if isResident s g.part then none
  else (s.contexts.reverse.find? fun c => decide (field c.cpu.partid 0 6 = g.part.toNat)).filter fun c =>
    c.cpu.member && inRect g.rect s.cpu.coreId && decide (c.identity.getD 2 0 = zextField g.id)

/-- A saved context changes. -/
def setContext (s : State) (c d : Context) : State := { s with contexts := s.contexts.map fun x => if x = c then d else x }

/-- A saved rank's core is no longer in its gang (R445). -/
def leftGang (c : Context) : Context := { c with cpu := { c.cpu with member := false, bar := [] }, net := { roots := [], out := [], flips := [], baris := [] } }

/-- The armed successors of a saved core whose rank retires, which wait for its partition (R155, R363). -/
def releaseSaved (s : State) (part : BitVec 6) (c : Context) : State :=
  (c.cpu.bar.filter fun b => b.2.active && b.2.reg && b.2.arm).foldl (fun s b => arriveLate s part (lateDecrement b.2.succ 1)) s

/-- A rank leaves a gang whose root stands in a saved context: the context's own rank, or another. [log 32: DESIGN CHOICE] -/
def retireSaved (s : State) (c : Context) (part : BitVec 6) (mine : Bool) : State :=
  let bar := if mine then c.cpu.bar.map fun b => (b.1, { b.2 with arm := false }) else c.cpu.bar
  let t := { s with cpu := { c.cpu with bar := bar }, net := c.net }
  let t := (List.range 32).foldl (if mine then retireOwnBarrier else retireOtherBarrier) t
  let d := { c with cpu := { c.cpu with member := !mine, bar := if mine then [] else t.cpu.bar }, net := t.net }
  let s := setContext { s with own := t.own } c d
  if mine then releaseSaved s part c else s

/-- A rank leaves its gang (R155, R445). -/
def retireRank (s : State) (g : Gang) (rank : Nat) : State :=
  let own := isOwnGang s g
  let s := { s with cfe := { s.cfe with gangs := s.cfe.gangs.map fun x => if x.id = g.id then { x with retired := x.retired ++ [rank] } else x } }
  match savedRank s g with
  | some c => retireSaved s c g.part (decide (rankCore g.rect rank = s.cpu.coreId))
  | none =>
  if rankCore g.rect rank = s.cpu.coreId && own then
    let s := (List.range 32).foldl retireOwnBarrier s
    { s with cpu := { s.cpu with member := false }, net := { s.net with flips := [], baris := [] } }
  else if own then (List.range 32).foldl retireOtherBarrier s
  else s

/-- The gang with an id. -/
def gangOf (s : State) (id : BitVec 32) : Option Gang := s.cfe.gangs.find? fun g => decide (g.id = id)

/-- RETIRE (R445). [log 55: DESIGN CHOICE] -/
def retireCommand (c : List Byte) (s : State) : State :=
  let rank := field (commandWord c 2) 0 10
  match gangOf s (BitVec.ofNat 32 (field (commandWord c 1) 0 32)) with
  | none => badCommand s
  | some g => if rankCount g.rect ≤ rank || g.retired.contains rank then badCommand s else adminOk (retireRank s g rank)

/-- RETIRE. -/
def execRetire (s : State) : Host.Outcome State Fault Refusal := .next (admin 0x08 [listedBits 0 32, listedBits 0 10] retireCommand s)

/-- The own cluster's cores, engines and translation cache are powered off (R225). [log 38: DESIGN CHOICE; 57: DESIGN CHOICE] -/
def powerOff (s : State) : State :=
  { s with cpu := { s.cpu with poweredOff := true, member := false }, eng := Engines.reset, mem := { s.mem with tlb := [], oldEntries := [], shadows := [] }, net := { s.net with flips := [], baris := [] } }

/-- The ranks of a gang in a cluster that have not retired. -/
def ranksIn (g : Gang) (cluster : Nat) : List Nat :=
  (List.range (rankCount g.rect)).filter fun r => decide (clusterOf (rankCore g.rect r) = cluster) && !(g.retired.contains r)

/-- A cluster of this device is fenced (R225, R445): its ranks retire one at a time. [log 57: DESIGN CHOICE] -/
def fenceCluster (s : State) (cluster : Nat) : State :=
  let s := s.cfe.gangs.foldl (fun s g =>
    let ranks := ranksIn g cluster
    let s := ranks.foldl (fun s r => match gangOf s g.id with
      | some x => retireRank s x r
      | none => s) s
    if ranks.isEmpty then s
    else { s with cfe := { s.cfe with gangs := s.cfe.gangs.map fun x => if x.id = g.id then { x with fenced := true } else x } }) s
  let s := { s with cfe := { s.cfe with fenced := s.cfe.fenced ||| BitVec.ofNat 160 (2 ^ cluster) } }
  if clusterOf s.cpu.coreId = cluster then powerOff s else finishExchanges s

/-- FENCE of the CFE (R436). -/
def fenceCommand (c : List Byte) (s : State) : State :=
  let w := commandWord c 1
  if 39 < field w 8 6 then badCommand s else adminOk (fenceCluster s (40 * field w 0 2 + field w 8 6))

/-- FENCE of the CFE. -/
def execFenceCmd (s : State) : Host.Outcome State Fault Refusal := .next (admin 0x07 [listedBits 0 2 ||| listedBits 8 6] fenceCommand s)

/-! ## Rings, streams, watchpoints (R378, R380, R388, R389, R438) -/

/-- A ring as a command places it, or an operand out of range. -/
def ringOf (slog : Nat) (ring tailw : Word) : Option Ring :=
  if slog ≤ 12 && decide (ring.toNat % 4096 = 0) && decide (tailw.toNat % 8 = 0) then some { addr := ring, slog := slog, tailw := tailw, count := 0 } else none

/-- RASRING. -/
def placeRasRing (c : List Byte) (s : State) : State :=
  match ringOf (field (commandWord c 1) 0 4) (commandWord c 2) (commandWord c 3) with
  | none => badCommand s
  | some r => adminOk { s with cfe := { s.cfe with rasRing := some r } }

/-- RASRING. -/
def execRasring (s : State) : Host.Outcome State Fault Refusal := .next (admin 0x09 [listedBits 0 4, everyBit, everyBit] placeRasRing s)

/-- WRING. -/
def placeWatchRing (c : List Byte) (s : State) : State :=
  match ringOf (field (commandWord c 1) 8 4) (commandWord c 2) (commandWord c 3) with
  | none => badCommand s
  | some r => adminOk { s with cfe := { s.cfe with watchRings := s.cfe.watchRings.set (field (commandWord c 1) 0 2) (some r) } }

/-- WRING. -/
def execWring (s : State) : Host.Outcome State Fault Refusal := .next (admin 0x0E [listedBits 0 2 ||| listedBits 8 4, everyBit, everyBit] placeWatchRing s)

/-- The CFE writes bytes of one page of a partition's global memory; where the log area is not mapped nothing is
written. -/
def cfeStore (s : State) (p : Partition) (a : Nat) (bs : List Byte) : State :=
  match partLeaf s p .write a with
  | .ok l => engineWrite s 4 none ((List.range bs.length).map (fun i => Dest.glob l (leafPa l a + i)) |>.zip bs) []
  | .error _ => s

/-- The units that record choices (R389): this core, the switch, the CFE, and the L2 slices of the device. -/
def logUnits : List LogUnit := [.core, .switch, .cfe] ++ (List.range 256).map fun n => .slice (BitVec.ofNat 8 n)

/-- The division of a log area of `left` units of 64 KiB from unit `first` on (R438): how much a unit has is free,
for the first three at least one. [log 58: DESIGN CHOICE] -/
def divideArea (part : BitVec 6) : List LogUnit → Nat → Nat → List Stream
  | [], _, _ => []
  | u :: us, first, left =>
    let want := Config.streamUnits part (unitCode u)
    let n := if left = 0 then 0 else if decide (u = .core) || decide (u = .switch) || decide (u = .cfe) then 1 + want % left else want % (left + 1)
    if n = 0 then divideArea part us first left
    else { part := part, unit := u, first := first, units := n, count := 0 } :: divideArea part us (first + n) (left - n)

/-- The streams of a log area: its directory has room for 256 (R438). -/
def streamsOf (p : Partition) : List Stream := (divideArea p.id logUnits 1 (p.logSize.toNat / 65536 - 1)).take 256

/-- The entry of a stream in the directory of its log area (R438). -/
def streamEntry (s : State) (x : Stream) : List Byte :=
  toBytes 1 (unitCode x.unit % 4) ++ toBytes 3 0 ++ toBytes 4 (unitNumber s x.unit) ++ toBytes 4 x.first ++ toBytes 4 x.units

/-- The directory at the start of a log area (R438). -/
def writeDirectory (s : State) (p : Partition) : State :=
  let b := (s.cfe.streams.filter fun x => decide (x.part = p.id)).flatMap (streamEntry s)
  cfeStore s p p.logVa.toNat (b ++ List.replicate (4096 - b.length) 0)

/-- The 16-byte records of a choice (R389): its two words, then the requesters of a group, two to a record. [log 58: DESIGN CHOICE] -/
def recordBytes (r : PeatRecord) : List Byte :=
  let ids := r.ids.flatMap fun i => toBytes 8 i.toNat
  let b := toBytes 8 r.a.toNat ++ toBytes 8 r.b.toNat ++ ids
  b ++ List.replicate (16 * recordSize r - b.length) 0

/-- The choices that the records of a stream hold: of a switch's stream each record is followed by the requesters it
counts. -/
def recordsFrom (part : BitVec 6) (u : LogUnit) : Nat → List Byte → List PeatRecord
  | 0, _ => []
  | n + 1, b =>
    if b.length < 16 then []
    else
      let count := if u = .switch then field (dword b 1) 0 32 else 0
      let ids := (List.range count).map fun i => BitVec.ofNat 18 (dword b (2 + i)).toNat
      let r : PeatRecord := { unit := u, part := part, a := dword b 0, b := dword b 1, ids := ids }
      r :: recordsFrom part u n (b.drop (16 * recordSize r))

/-- Where the next record of a stream goes. -/
def streamAddress (p : Partition) (x : Stream) : Nat := p.logVa.toNat + 65536 * x.first + 16 * x.count

/-- A unit writes its oldest record of a partition to its stream (R389); one of a stream or a partition that is gone
is dropped. -/
def writeChoice (s : State) (r : PeatRecord) : State :=
  let rest := { s with cfe := { s.cfe with peatLog := s.cfe.peatLog.erase r } }
  match partitionOf s r.part, s.cfe.streams.find? fun x => decide (x.part = r.part) && decide (x.unit = r.unit) with
  | some p, some x =>
    let next := { x with count := x.count + recordSize r }
    let parts := (List.range (recordSize r)).map fun i => (16 * i, ((recordBytes r).drop (16 * i)).take 16)
    parts.foldl (fun s b => cfeStore s p (streamAddress p x + b.1) b.2)
      { rest with cfe := { rest.cfe with streams := rest.cfe.streams.map fun y => if y = x then next else y } }
  | _, _ => rest

/-- The oldest record that waits goes to its stream. -/
def writeStream (s : State) : State :=
  match s.cfe.peatLog with
  | [] => s
  | r :: _ => writeChoice s r

/-- Every record of a partition that waits goes to its stream. -/
def flushStreams (s : State) (part : BitVec 6) : State :=
  (s.cfe.peatLog.filter fun r => decide (r.part = part)).foldl writeChoice s

/-- The bytes of a stream as they stand in the log area. -/
def streamBytes (s : State) (p : Partition) (x : Stream) : List Byte :=
  (List.range x.count).flatMap fun i =>
    match partRead s p (p.logVa.toNat + 65536 * x.first + 16 * i) 16 with
    | .ok b => b
    | .error _ => List.replicate 16 0

/-- The lines of other devices in which a partition's streams stand and that are not at hand. -/
def streamMissing (s : State) (p : Partition) : List FarLine :=
  ((s.cfe.streams.filter fun x => decide (x.part = p.id)).flatMap fun x => partMissing s p (p.logVa.toNat + 65536 * x.first) (16 * x.count)).eraseDups

/-- PEATCFG of this core from its resident partition (R388). -/
def writePeat (s : State) (p : Partition) : State :=
  if isResident s p.id then { s with cpu := { s.cpu with peatcfg := peatWord p } } else s

/-- The streams that a mode begins with (R389, R390): a recording starts with empty ones, a replay reads those that
the log area holds. [log 58: DESIGN CHOICE] -/
def startStreams (s : State) (p : Partition) : State :=
  let others := s.cfe.streams.filter fun x => decide (x.part ≠ p.id)
  let mine := s.cfe.streams.filter fun x => decide (x.part = p.id)
  let records := if p.peat = 2 then mine.flatMap fun x => recordsFrom p.id x.unit x.count (streamBytes s p x) else []
  let streams := if p.peat = 1 || mine.isEmpty then others ++ streamsOf p else s.cfe.streams
  let s := writeDirectory { s with cfe := { s.cfe with streams := streams } } p
  if p.peat = 2 then
    { s with cfe := { s.cfe with
        replay := (s.cfe.replay.filter fun r => decide (r.part ≠ p.id)) ++ records
        diverged := s.cfe.diverged.filter fun d => decide (d.part ≠ p.id) } }
  else s

/-- PEAT (R436, R438): what units have recorded has been written before the mode changes, and the command that ends a
replay reports its first divergence. [log 58: DESIGN CHOICE] -/
def setPeat (c : List Byte) (s : State) : State :=
  let w := commandWord c 1
  let va := commandWord c 2
  let sz := commandWord c 3
  match partitionOf s (BitVec.ofNat 6 (field w 0 6)) with
  | none => badCommand s
  | some old =>
    if field w 8 2 = 3 || decide (va.toNat % 65536 ≠ 0) || decide (sz.toNat % 65536 ≠ 0) || decide (sz.toNat < 131072) then badCommand s
    else
      let found := if old.peat = 2 then s.cfe.diverged.find? fun d => decide (d.part = old.id) else none
      let s := flushStreams s old.id
      let p := { old with peat := BitVec.ofNat 2 (field w 8 2), replim := BitVec.ofNat 32 (field w 32 32), logVa := va, logSize := sz }
      let miss := if p.peat = 2 then streamMissing s p else []
      if !miss.isEmpty then requestOnce s miss
      else
        let s := writePeat (startStreams (putPartition s p) p) p
        match found with
        | some d => finishAdmin s 10 d.info
        | none => adminOk s

/-- PEAT. -/
def execPeat (s : State) : Host.Outcome State Fault Refusal :=
  .next (admin 0x0A [listedBits 0 6 ||| listedBits 8 2 ||| listedBits 32 32, listedBits 0 55, everyBit] setPeat s)

/-- WATCH (R378, R379): EN holds only for words in one line homed on the slice, whose copies are
invalidated. -/
def setWatch (c : List Byte) (s : State) : State :=
  let w := commandWord c 1
  let addr := commandWord c 2
  let cfg := commandWord c 3
  let line := BitVec.ofNat 37 (addr.toNat / 128)
  let fits := decide (addr.toNat / 8 % 16 + field cfg 0 4 ≤ 15) && decide (homeDie line = field w 0 2) && decide (homeSlice line = field w 8 6)
  let on := bit cfg 24 && fits
  let x : Comparator := { die := BitVec.ofNat 2 (field w 0 2), slice := BitVec.ofNat 6 (field w 8 6), comp := BitVec.ofNat 3 (field w 16 3), waddr := addr, wcfg := withField cfg 24 1 (bnat on) }
  let rest := s.cfe.comparators.filter fun y => !(decide (y.die = x.die) && decide (y.slice = x.slice) && decide (y.comp = x.comp))
  let s := { s with cfe := { s.cfe with comparators := rest ++ [x] } }
  adminOk (if on then invalidateNow s line { part := BitVec.ofNat 6 (field cfg 17 6), cls := 5 } else s)

/-- WATCH. -/
def execWatch (s : State) : Host.Outcome State Fault Refusal :=
  .next (admin 0x0B [listedBits 0 2 ||| listedBits 8 6 ||| listedBits 16 3, listedBits 3 41, listedBits 0 4 ||| listedBits 6 19] setWatch s)

/-! ## The manifest (R392) -/

/-- A field of the configuration: its key, field id × 65536 + index, and its value. -/
def manifestField (id index : Nat) (v : Word) : Nat × Word := (id * 65536 + index, v)

/-- A configured value that the spec leaves to the device. [log 59: DESIGN CHOICE] -/
def deviceValue (id index : Nat) : Nat × Word := manifestField id index (Config.manifestValue (BitVec.ofNat 16 id) (BitVec.ofNat 16 index))

/-- The present configuration in increasing order of its keys. [log 59: DESIGN CHOICE] -/
def configured (s : State) : List (Nat × Word) :=
  [deviceValue 1 0, deviceValue 2 0, deviceValue 3 0, deviceValue 4 0]
    ++ ((List.range 4).map fun d => manifestField 0x10 d (word (field s.cfe.fenced (40 * d) 40)))
    ++ ((List.range 8).map fun n => match s.cfe.partitions with
      | [p] => manifestField 0x11 n (p.prect.getD n 0)
      | _ => deviceValue 0x11 n)
    ++ [deviceValue 0x20 0, (match s.cfe.partitions with
      | [p] => manifestField 0x21 0 (zextField p.peat)
      | _ => deviceValue 0x21 0), deviceValue 0x30 0]
    ++ ((List.range 256).filterMap fun c => (s.fab.loaded.find? fun x => decide (x.cls.toNat = c)).map fun x => manifestField 0x31 c (Config.kernelHash x.code))

/-- The entries of a manifest. [log 59: DESIGN CHOICE] -/
def manifestEntries (b : List Byte) : List (Nat × Word) :=
  (List.range (b.length / 16)).map fun i => (field (dword b (2 * i)) 0 16 * 65536 + field (dword b (2 * i)) 16 16, dword b (2 * i + 1))

/-- An entry that differs from the configuration, or a configured field that the manifest lacks: its key. -/
def differs (cfg man : List (Nat × Word)) : List Nat :=
  ((man.filter fun e => !(cfg.any fun f => decide (f.1 = e.1) && decide (f.2 = e.2))).map (·.1))
    ++ (cfg.filter fun f => !(man.any fun e => decide (e.1 = f.1))).map (·.1)

/-- MANIFEST (R392): 0, or the first difference. -/
def compareManifest (c : List Byte) (s : State) : State :=
  let n := 16 * field (commandWord c 1) 0 16
  let done := fun (b : List Byte) => finishAdmin s 0 (word ((differs (configured s) (manifestEntries b)).min?.getD 0))
  if (commandWord c 2).toNat % 16 ≠ 0 then badCommand s
  else if n = 0 then done []
  else withHostBytes s (commandWord c 2) n done

/-- MANIFEST. -/
def execManifest (s : State) : Host.Outcome State Fault Refusal := .next (admin 0x0C [listedBits 0 16, everyBit] compareManifest s)

/-! ## Reset and the firmware image (R450) -/

/-- What an agenda holds for the world outside; what was on its way inside the device is lost. [log 60: DESIGN CHOICE] -/
def outerAgenda (l : List Act) : List Act :=
  l.filter fun a => match a with
    | .event _ => true
    | .turn _ => true
    | _ => false

/-- The device is reset (R430, R450): FAILS, the last start's REASON, the image slot and what has left the
device stay. [log 60: DESIGN CHOICE] -/
def resetDevice (s : State) : State :=
  { State.reset with
    cpu := { Core.reset with coreId := s.cpu.coreId }
    fab := { State.reset.fab with cols := s.fab.cols, rows := s.fab.rows, departed := s.fab.departed }
    cfe := { Cfe.reset with fails := s.cfe.fails, bootReason := s.cfe.bootReason, image := s.cfe.image, toHost := s.cfe.toHost }
    own := { s.own with agenda := outerAgenda s.own.agenda, turn := .core, stalled := false } }

/-- The completions that no interrupt has reported yet are reported before the device is reset (R448). [log 60: DESIGN CHOICE] -/
def reportAll (s : State) : State :=
  (List.range 256).foldl (fun s q => match s.cfe.queues.get q with
    | some x => if x.unreported ≠ 0 then interrupt s q x else s
    | none => s) s

/-- FWLOAD (R450). [log 60: DESIGN CHOICE] -/
def loadFirmware (c : List Byte) (s : State) : State :=
  let n := field (commandWord c 1) 0 32
  if n = 0 || decide (64 * 2 ^ 20 < n) then badCommand s
  else withHostBytes s (commandWord c 2) n fun b =>
    let s := reportAll (adminOk s)
    resetDevice { s with cfe := { s.cfe with image := b, fails := 0 } }

/-- FWLOAD. -/
def execFwload (s : State) : Host.Outcome State Fault Refusal := .next (admin 0x0D [listedBits 0 32, everyBit] loadFirmware s)

end Sys2Proof.Machine
end

