-- ==== Sys2Proof/Machine/Atomics.lean ====
section
/-! DEFINITION. The atomics, acquire loads and release stores, the fences, the stash controls and the
monitors (R226 to R270). -/

namespace Sys2Proof.Machine

/-! ## The checks of ATOM accesses (R251) -/

/-- Rows 1 to 3 of R251: the cause and none, or nothing. -/
def atomEarly (a n : Nat) : Option (BitVec 8) :=
  if 2 ^ 55 < a + n then some causeAddr
  else if a < 0x100000000 then some causeAccess
  else if a % n ≠ 0 then some causeMisalign
  else none

/-- The place of an ATOM access: rows 1 to 4 of R251. -/
def atomPlace (s : State) (a : Word) (n : Nat) : Acc Piece :=
  match atomEarly a.toNat n with
  | some c => .trap s c a
  | none => (pageOf s a.toNat a.toNat).map fun l => { va := a.toNat, n := n, leaf := some l, key := leafPa l a.toNat }

/-- The access of an ATOM instruction as a piece: rows 1 to 5 of R251. -/
def atomPiece (s : State) (a : Word) (n : Nat) (need : Need) : Acc Piece :=
  (atomPlace s a n).bind fun s p =>
    if p.leaf.any fun l => permits l (partOf s) (isUser s) need then .ok s p else .trap s causePerm a

/-- The page of a piece keeps a log (R240). -/
def isLogged (p : Piece) : Bool := p.leaf.any fun l => bit l.word 12

/-- An acquire role: order 01 or 11 (R230). -/
def isAcquire (o : BitVec 2) : Bool := bit o 0
/-- A release role: order 10 or 11 (R228). -/
def isRelease (o : BitVec 2) : Bool := bit o 1

/-- A release comes after every earlier strong access of the core (R241): whether one that another device serves
is outstanding, an atomic or a STREL whose home has not acknowledged it, or, for a release to another device, any. A
release orders class 0 alone (R243): a fabric atomic, of class 4, holds none back, also where R248 gives the outcomes of
its litmus tests for every other placement. [log 91: DESIGN CHOICE] -/
def releaseWaits (s : State) (far : Bool) : Bool :=
  (s.cpu.inFlight.any fun a => decide (a.cls = 0) && (far || decide (a.dev.toNat ≠ ownDev s)))
    || s.cpu.acks.any fun a => decide (a.cls = 0) && a.home && decide (a.line.dev.toNat ≠ ownDev s)

/-- An instruction that is a release publishes, and a strong access is not sent while acknowledgements
are held (R229, R236), nor a release before the strong accesses that it follows (R241). `far` says that another
device is its home. The hold of R229 covers fabric atomics of class 4, which R226 counts among the strong accesses. [log 91: DESIGN CHOICE] -/
def sendStrong (s : State) (release far : Bool) (q : Nat) (f : State → Res) : Res :=
  if isFenced s q then .stall (waitFenced s q)
  else if isHeld s then .stall s
  else
    let s := if release then publish s else s
    if isHeld s || (release && releaseWaits s far) then .stall s else f s

/-- The earlier atomics of the core that come before a strong access that is performed at its issue (R240, R241): those
of the same line, and returning ones whose home lies on the core's die with this one's; for a line of another device
those of the line that have not been answered. -/
def atomicsBefore (s : State) (ln : LineId) : List Nat :=
  if isHome s ln then
    s.mem.kept.filterMap fun k => match k with
      | .atomic q (some id) =>
        if decide (q.pa.toNat / 128 = ln.line.toNat)
          || (decide (homeDie (BitVec.ofNat 37 (q.pa.toNat / 128)) = idDie s.cpu.coreId) && decide (homeDie ln.line = idDie s.cpu.coreId) && !q.posted)
        then some id else none
      | _ => none
  else (s.cpu.inFlight.filter fun a => decide (a.dev = ln.dev) && decide (a.pa.toNat / 128 = ln.line.toNat)).map (·.id)

/-- A strong access that is performed at its issue waits for the earlier ones of its line (R240): for atomics, which
first makes the core publish where a home slice keeps one (R236, R238), and for what another device's home has not
acknowledged. -/
def afterEarlier (s : State) (ln : LineId) (f : State → Res) : Res :=
  if !(atomicsBefore s ln).isEmpty then .stall (waitForAtomics s fun a => (atomicsBefore s ln).contains a.id)
  else if !(isHome s ln) && homePending s ln then .stall s
  else f s

/-! ## Atomics (R252 to R255, R258, R259) -/

/-- A register named by its number plus one. -/
def pairHigh (r : Reg) : Reg := r + 1

/-- X(rb) and X(rd) as the operands of an atomic of `n` bytes; pairs for CAS2 (R252 to R254). -/
def operandOf (s : State) (n : Nat) (r : Reg) : BitVec 128 :=
  if n = 16 then BitVec.ofNat 128 ((readX s r).toNat + 2 ^ 64 * (readX s (pairHigh r)).toNat)
  else BitVec.ofNat 128 ((readX s r).toNat % 2 ^ (8 * n))

/-- The request that an atomic sends to its home slice. -/
def atomRequest (s : State) (p : Piece) (op n : Nat) (o : BitVec 2) (posted : Bool) (exp new : BitVec 128) : AtomRequest :=
  { op := BitVec.ofNat 6 op, size := BitVec.ofNat 2 (Nat.log2 n), order := o, posted := posted, pa := BitVec.ofNat 44 p.key,
    part := partOf s, key := (p.leaf.map leafKey).getD 0, core := s.cpu.coreId, exp := exp, new := new, logged := isLogged p,
    streaming := p.leaf.any fun l => decide (leafCache l = 2) }

/-- An atomic whose answer is awaited (R242). -/
def await (s : State) (p : Piece) (n : Nat) (o : BitVec 2) (d : Reg) (posted : Bool) (cls : Nat) : State :=
  let a : InFlight := { id := s.cpu.nextId, level := frameTag s, rd := d, size := n, addr := word p.va, dev := (pieceLine p).dev, pa := BitVec.ofNat 44 p.key, returning := !posted, cls := cls, fences := if isAcquire o then [{ cls := 0, first := 0, scope := systemScope, deep := false }] else [] }
  { s with cpu := { s.cpu with inFlight := s.cpu.inFlight ++ [a], nextId := s.cpu.nextId + 1 } }

/-- The ATOM packet of a request (R400). [log 50: DESIGN CHOICE] -/
def atomPacket (s : State) (p : Piece) (r : AtomRequest) : Packet :=
  { corePacket s (pieceLine p) 6 4 (atomBytes r) with pa := r.pa, key := r.key, lost := if r.posted then [r.core] else [] }

/-- What the core holds of an atomic's words is published before the request leaves for another device (R238). -/
def publishHeldWords (s : State) (p : Piece) : State :=
  let g := grantOf s (pieceLine p)
  if g.words &&& coveredWords p = 0 then s else publishLine systemScope s g

/-- Send an atomic (R238, R241, R242, R398): to a home slice of this device, which performs it in its order or
keeps it while a word is held, or in a packet to another device, after what the core has sent there about the line; a
device that no path reaches gives poison. [log 17: DEDUCED] -/
def sendAtomic (s : State) (p : Piece) (n : Nat) (o : BitVec 2) (d : Reg) (r : AtomRequest) (cls : Nat) : State :=
  let id := s.cpu.nextId
  let w := await (if isHome s (pieceLine p) then s else publishHeldWords s p) p n o d r.posted cls
  if isHome s (pieceLine p) then keep w (.atomic r (some id))
  else if reachable s (pieceLine p).dev.toNat then sendRemotes (keep w (.remote (pieceLine p) (atomPacket s p r) r id))
  else answer (lostRequest w (pieceLine p) 6 (atomBytes r)) id none

/-- An atomic (R251 to R255): op6, size, order, whether it is posted, and its operands. [log 50: DESIGN CHOICE] -/
def atomBody (op n : Nat) (o : BitVec 2) (d a : Reg) (need : Need) (posted : Bool) (exp new : State → BitVec 128) (s : State) : Res :=
  (atomPiece s (readX s a) n need).run fun s p =>
    let cls := if o = 0 && !isHome s (pieceLine p) then 4 else 0
    sendStrong s (isRelease o) (!isHome s (pieceLine p)) cls fun s =>
      .ok (sendAtomic s p n o d (atomRequest s p op n o posted (exp s) (new s)) cls)

/-- The size of a 1-bit size field: 4 or 8 bytes (R53). -/
def atomWidth (z : BitVec 1) : Nat := if z = 0 then 4 else 8

/-- An arithmetic atomic or a swap (R252): posted with rd = x0. -/
def amoBody (op : Nat) (d a b : Reg) (o : BitVec 2) (z : BitVec 1) : State → Res :=
  atomBody op (atomWidth z) o d a .both (decide (d = 0)) (fun _ => 0) fun s => operandOf s (atomWidth z) b

/-- CAS (R253). -/
def casBody (d a b : Reg) (o : BitVec 2) (z : BitVec 1) : State → Res :=
  atomBody 9 (atomWidth z) o d a .both (decide (d = 0)) (fun s => operandOf s (atomWidth z) d) fun s => operandOf s (atomWidth z) b

/-- CAS2 (R254). -/
def cas2Body (d a b : Reg) (o : BitVec 2) : State → Res :=
  atomBody 10 16 o d a .both (decide (d = 0)) (fun s => operandOf s 16 d) fun s => operandOf s 16 b

/-- REDADD (R255): order 00 or 10. -/
def redaddBody (a b : Reg) (o z : BitVec 1) : State → Res :=
  atomBody 11 (atomWidth z) (BitVec.ofNat 2 (2 * o.toNat)) 0 a .write true (fun _ => 0) fun s => operandOf s (atomWidth z) b

/-! ## LDACQ and STREL (R256, R257) -/

/-- The line of an acquire load: the home value, or the line that came from another device for this
access (R226, R256). -/
def acquireLine (s : State) (p : Piece) (l : Leaf) : Acc LineView :=
  let ln := pieceLine p
  if isHome s ln then
    .ok (touchHome s ln (decide (leafCache l = 2)))
      { data := lineTable (homeBytes s (leafKey l) (ln.line.toNat * 128) 128), poison := homeLinePoison s ln.line, marks := homeMarks s ln.line }
  else
    match heldLine s ln .core with
    | some x => .ok s { data := x.data, poison := x.poison, marks := x.marks }
    | none =>
      if reachable s ln.dev.toNat then .stall (requestLine s ln (.line .core) (leafKey l) (partOf s) false [])
      else .ok (lostRequest s ln 4 []) { data := [], poison := 0xFFFF, marks := [] }

/-- The bytes of an acquire load: words the core holds from its own view, others from the home
(R233, R256). -/
def acquireBytes (s : State) (p : Piece) (l : Leaf) (v : LineView) : List Byte :=
  let ln := pieceLine p
  let own := (grantOf s ln).words
  (List.range p.n).map fun i =>
    let off := p.key % 128 + i
    if bit own (off / 8) then ownByte s ln (leafKey l) off else v.data.get off

/-- Poisoned words of a line in the core's own view (R223). -/
def ownPoison (s : State) (ln : LineId) (home : BitVec 16) : BitVec 16 :=
  ((stashLine s ln).map (·.poison)).getD home &&& ~~~ wholeWords s ln

/-- Comparators see a strong access that its home slice performs (R380). -/
def watchStrong (s : State) (p : Piece) (access : Nat) : State :=
  let ln := pieceLine p
  if isHome s ln then watchMatch s ln.line 1 (sourcePort s ln.line s.cpu.coreId) access (partOf s) (coveredWords p) else s

/-- An access of the core to a logged line of this device, which replay names later than another (R390). -/
def replayStalls (s : State) (p : Piece) (r : PeatRecord) : Bool := isLogged p && isHome s (pieceLine p) && replayHolds s r

/-- The stall of an access, which notes one that replay holds (R391). -/
def stallHeld (s : State) (p : Piece) (r : PeatRecord) : Res :=
  .stall (if replayStalls s p r then { s with own := { s.own with holding := some r } } else s)

/-- LDACQ (R251, R256). -/
def ldacqBody (d a : Reg) (z : BitVec 2) (s : State) : Res :=
  let n := 2 ^ z.toNat
  (atomPiece s (readX s a) n .read).run fun s p =>
    match p.leaf with
    | none => .stall s
    | some l =>
      let rec_ := sliceRecord (partOf s) (pieceLine p).line s.cpu.coreId.toNat 1
      if isFenced s 0 then .stall (waitFenced s 0)
      else if isHeld s || replayStalls s p rec_ then stallHeld s p rec_
      else afterEarlier s (pieceLine p) fun s =>
        (acquireLine (dropOtherKey s (pieceLine p) (leafKey l)) p l).run fun s v =>
          let hit := conflicts s p v.marks
          match lowestMark (hit.filter fun m => !m.release) with
          | some m => .trap { s with cpu := { s.cpu with raceinfo := raceWord false m.holder } } causeRace (readX s a)
          | none =>
            let own := (grantOf s (pieceLine p)).words
            if !hit.isEmpty then .stall (dropUsed s)
            else if coveredWords p &&& ((v.poison &&& ~~~ own) ||| (ownPoison s (pieceLine p) v.poison &&& own)) ≠ 0 then .trap (watchStrong s p 1) causePoison (readX s a)
            else
              let s := if isLogged p && isHome s (pieceLine p) then logChoice (watchStrong s p 1) rec_ else watchStrong s p 1
              let x := ofBytes (acquireBytes s p l v)
              .ok (writeX s d (if n = 8 then word x else sext (8 * n) x))

/-- The grants that hold words of plain stores. -/
def hasStores (s : State) : Bool := s.mem.grants.any fun g => decide (g.words &&& ~~~ g.release ≠ 0)

/-- Words that a STREL has stored leave the core's mask (R257). -/
def releaseWords (s : State) (p : Piece) : State :=
  let g := grantOf s (pieceLine p)
  setGrant s { g with words := g.words &&& ~~~ coveredWords p, release := g.release &&& ~~~ coveredWords p, written := g.written &&& ~~~ coveredWords p }

/-- The value of a STREL is performed at its home (R210, R257, R258, R268). -/
def performRelease (s : State) (p : Piece) (l : Leaf) (bs : List Byte) : State :=
  let ln := pieceLine p
  let before := ownByte s ln (leafKey l)
  let s := releaseWords s p
  if isHome s ln then
    let s := if isLogged p then logChoice s (sliceRecord (partOf s) ln.line s.cpu.coreId.toNat 2) else s
    let s := invalidateNow (touchHome s ln (decide (leafCache l = 2))) ln.line { part := partOf s, cls := 0 }
    let s := putHome (recordDiscarded s (partOf s) s.cpu.coreId.toNat p.key) (leafKey l) p.key bs
    fireMonitors (watchStrong s p 2) ln.line (coveredWords p)
  else
    let base := (basePoison s ln).getD 0xFFFF
    let s := match stashLine s ln with
      | some x => evictLine s x
      | none => s
    let fresh := (List.range p.n).map fun i => (p.key % 128 + i, bs.getD i 0)
    let rest := (bytesOf (coveredWords p) before).filter fun x => !((fresh.map (·.1)).contains x.1)
    let s := writeBack s ln (leafKey l) .publication (isLogged p) (fresh ++ rest) (base &&& ~~~ wholeIn fresh) (wholeIn fresh)
    let s := keepBehind (awaitAcks s (invalidationAcks s ln (dieStashes s ln) 0 systemScope false [])) ln (ownStash s)
    let ack : Ack := { line := ln, src := .peer (lineDie ln), cls := 0, holds := false, fences := [], home := true }
    if reachable s ln.dev.toNat then awaitAcks s [ack] else s

/-- STREL (R251, R257). -/
def strelBody (a b : Reg) (z : BitVec 2) (s : State) : Res :=
  let n := 2 ^ z.toNat
  (atomPiece s (readX s a) n .write).run fun s p =>
    match p.leaf with
    | none => .stall s
    | some l =>
      if isFenced s 0 then .stall (waitFenced s 0)
      else
        let s := if hasStores s then publish s else s
        let rec_ := sliceRecord (partOf s) (pieceLine p).line s.cpu.coreId.toNat 2
        if isHeld s || releaseWaits s true || replayStalls s p rec_ then stallHeld s p rec_
        else
          afterEarlier s (pieceLine p) fun s =>
            (obtain_ s p true).run fun s _ =>
              (readyPieces (rekeyPieces s [p]) [p]).run fun s _ => .ok (performRelease s p l (toBytes n (readX s b).toNat))

/-! ## Fences (R244 to R246, R262) -/

/-- Later accesses of class `q` wait for the acknowledgements and atomics that the conditions name: of engine
commands those that are written from now on. What belongs to an engine operation that still runs is not
awaited (R246). `deep` says that the invalidations of those atomics are awaited with them. [log 20: DESIGN CHOICE] -/
def fenceOff (s : State) (scope : Word) (q : Nat) (deep : Bool) (ack : Ack → Bool) (atom : InFlight → Bool) : State :=
  let f : Fence := { cls := q, first := s.cpu.nextId, scope := scope, deep := deep }
  { s with cpu := { s.cpu with
      acks := s.cpu.acks.map fun a => if ack a && awaitedIn scope a && a.op.isNone then { a with fences := f :: a.fences } else a,
      inFlight := s.cpu.inFlight.map fun i => if atom i then { i with fences := f :: i.fences } else i } }

/-- Acknowledgements within a scope hold back the effects of R229. [log 20: DESIGN CHOICE] -/
def holdAcks (s : State) (scope : Word) : State :=
  { s with cpu := { s.cpu with acks := s.cpu.acks.map fun a => if decide (a.cls = 0) && awaitedIn scope a then { a with holds := true } else a } }

/-- A fence with a malformed scope traps SCOPE (R14, R262). -/
def withScope (c : BitVec 2) (s : State) (f : Word → Res) : Res :=
  let r := readSc s c.toNat
  if !bit r 32 && !rectWellFormed r then .trap s causeScope r else f r

/-- An atomic of class 0 (R243). -/
def isCoreAtomic (i : InFlight) : Bool := decide (i.cls = 0)

/-- FENCE full (R245). -/
def fenceBody (c : BitVec 2) (s : State) : Res :=
  withScope c s fun r =>
    let s := fenceOff (holdAcks (publishIn s r) r) r 0 true (fun a => decide (a.cls = 0)) isCoreAtomic
    .ok (fenceOff s r 5 true (fun _ => false) isCoreAtomic)

/-- FENCE acquire (R245). -/
def fenceAcqBody (c : BitVec 2) (s : State) : Res :=
  withScope c s fun r => .ok (fenceOff s r 0 false (fun _ => false) fun i => isCoreAtomic i && i.returning)

/-- FENCE release (R245): 5 holds back later strong accesses and the effects of R229. -/
def fenceRelBody (c : BitVec 2) (s : State) : Res :=
  withScope c s fun r => .ok (fenceOff (holdAcks (publishIn s r) r) r 5 true (fun _ => false) isCoreAtomic)

/-- FENCEX (R246): accesses of class P before later ones of class Q; P = 0 is also a release, Q = 0
also an acquire. -/
def fencexBody (c : BitVec 2) (p q : BitVec 5) (s : State) : Res :=
  withScope c s fun r =>
    let s := if p = 0 then holdAcks (publishIn s r) r else s
    let s := fenceOff s r q.toNat true (fun a => decide (a.cls = p.toNat)) fun i => decide (i.cls = p.toNat)
    .ok (if q = 0 then fenceOff s r 0 false (fun _ => false) fun i => isCoreAtomic i && i.returning else s)

/-! ## Stash control (R263 to R265) -/

/-- A range that passes 2^55 − 1 (R263). -/
def rangeBad (a n : Word) : Bool := decide (2 ^ 55 < a.toNat + n.toNat)

/-- The leaf of a page of a range: what a walk finds now, or a leaf that the cache holds (R221), when
R263 does not skip the page. -/
def rangeLeaf (s : State) (d a : Nat) : Option Leaf :=
  let c := ownContext s
  let now := walk s c a
  let old := cachedLeaves s c a now
  let i := pick (Config.choiceAt d a) (old.length + 1)
  let leaf := if i = 0 then now.toOption else old[i - 1]?
  leaf.filter fun l => permits l (partOf s) (isUser s) .read && decide (leafCache l = 0)

/-- The first addresses of the 64 KiB pages that a range of global addresses touches. -/
def rangePages (a n : Nat) : List Nat :=
  let first := max (a / 65536) 0x10000
  (List.range ((a + n + 65535) / 65536 - first)).map fun i => (first + i) * 65536

/-- A stash line holds a line of the range (R263, R264). -/
def lineInRange (s : State) (d a n : Nat) (ln : LineId) : Bool :=
  (rangePages a n).any fun page =>
    match rangeLeaf s d page with
    | some l =>
      let base := leafPa l page
      let pa := ln.line.toNat * 128
      let va := page + (pa - base)
      decide (ln.dev.toNat = field l.word 56 8) && decide (base ≤ pa) && decide (pa < base + 65536)
        && decide (a / 128 * 128 ≤ va) && decide (va < a + n)
    | none => false

/-- SFLUSH and SINV (R263, R264) with what is done to each stash line. -/
def rangeBody (a b : Reg) (f : State → StashLine → State) (s : State) : Res :=
  let n := readX s b
  let x := readX s a
  if n = 0 then .ok s
  else if n = -1 then .ok (s.mem.stash.foldl f s)
  else if rangeBad x n then .trap s causeAddr x
  else if !hasStash s then .ok s
  else
    let d := s.own.draws
    let hit := s.mem.stash.filter fun l => lineInRange s d x.toNat n.toNat l.line
    let s := { s with own := { s.own with draws := d + 1 } }
    .ok (hit.foldl f s)

/-- What SFLUSH sent to other devices is accepted by its home slices before the core goes on (R264). -/
def awaitFlushed (s t : State) : State :=
  let new := t.cpu.acks.drop s.cpu.acks.length
  { t with cpu := { t.cpu with acks := t.cpu.acks.take s.cpu.acks.length ++ new.map fun a => { a with cls := 8 } } }

/-- SFLUSH: the lines are flushed, and the core waits for what it sent to other devices. -/
def flushBody (a b : Reg) (s : State) : Res :=
  match rangeBody a b flushLine s with
  | .ok t => .ok (awaitFlushed s t)
  | r => r

/-- Start the fills of SPF from a line on (R265): `left` lines of the range, at most `fills` fills. -/
def prefetch (d : Nat) : Nat → Nat → Nat → State → State
  | 0, _, _, s => s
  | _ + 1, _, 0, s => s
  | left + 1, va, fills + 1, s =>
    match (if va < 0x100000000 then none else rangeLeaf s d va) with
    | none => prefetch d left (va + 128) (fills + 1) s
    | some l =>
      let ln := leafLine l (leafPa l va)
      if (stashLine s ln).isSome then prefetch d left (va + 128) (fills + 1) s
      else prefetch d left (va + 128) fills (prefetchLine s ln (leafKey l))

/-- SPF (R263, R265). -/
def spfBody (a b : Reg) (s : State) : Res :=
  let n := readX s b
  let x := readX s a
  if n = 0 then .ok s
  else if rangeBad x n then .trap s causeAddr x
  else if !hasStash s then .ok s
  else
    let d := s.own.draws
    let s := { s with own := { s.own with draws := d + 1 } }
    .ok (prefetch d ((x.toNat + n.toNat - 1) / 128 - x.toNat / 128 + 1) (x.toNat / 128 * 128) 32 s)

/-! ## Monitors (R267, R269) -/

/-- Registrations that a home slice of this device holds. -/
def registrations (s : State) (line : BitVec 37) : Nat :=
  (s.mem.monitors.filter fun r => decide (homeSlice r.line = homeSlice line) && decide (homeDie r.line = homeDie line)).length

/-- The lowest free monitor entry. -/
def freeEntry (s : State) : Option Nat := (List.range 16).find? fun i => (s.cpu.monitors.get i).isNone

/-- Take a monitor entry (R267). -/
def takeEntry (s : State) (i : Nat) (ln : LineId) (w : BitVec 4) (n : BitVec 12) : State :=
  { s with cpu := { s.cpu with monitors := s.cpu.monitors.set i (some { line := ln, word := w, n := n }) } }

/-- A MONARM finds no room: the core has no free entry, or the home slice on this device has no registration left
(R267). -/
def monitorFull (s : State) (ln : LineId) : Bool :=
  (freeEntry s).isNone || (isHome s ln && decide (1024 ≤ registrations s ln.line))

/-- MONARM (R267): FULL without an entry, or when the home slice has no registration left; whether a
slice of another device has one is free. A registration takes its place in the line's order, as a read (R240, R389), in
the lowest free entry. [log 22: DESIGN CHOICE] -/
def monarmBody (d a b : Reg) (s : State) : Res :=
  let x := readX s b
  if pageOfCounters s = 0 then .trap s causeDcerr (reasoned 1 (word (field x 0 12)))
  else if field x 12 52 ≠ 0 then .trap s causeDcerr (reasoned 2 x)
  else
    (atomPiece s (readX s a) 8 .read).run fun s p =>
      let ln := pieceLine p
      let rec_ := sliceRecord (partOf s) ln.line s.cpu.coreId.toNat 1
      let logged := isLogged p && isHome s ln
      if monitorFull s ln then .ok (writeX s d 1)
      else if replayStalls s p rec_ then stallHeld s p rec_
      else afterEarlier s ln fun s =>
        sendStrong s false (!isHome s ln) 0 fun s =>
          let w := BitVec.ofNat 4 (p.key / 8 % 16)
          let n := BitVec.ofNat 12 (field x 0 12)
          let far := if isHome s ln then (0, s) else draw s 2
          match freeEntry s with
          | none => .ok (writeX s d 1)
          | some i =>
            if far.1 = 1 then .ok (writeX far.2 d 1)
            else
              let t := takeEntry (if logged then logChoice far.2 rec_ else far.2) i ln w n
              let r : Registration := { core := s.cpu.coreId, part := partOf s, line := ln.line, word := w, n := n }
              .ok (writeX (if isHome s ln then { t with mem := { t.mem with monitors := t.mem.monitors ++ [r] } } else t) d 0)

/-- MONDIS (R269). -/
def mondisBody (a : Reg) (s : State) : Res :=
  (atomPlace s (readX s a) 8).run fun s p =>
    .ok { s with mem := { s.mem with removals := s.mem.removals ++ [(pieceLine p, BitVec.ofNat 4 (p.key / 8 % 16))] } }

/-! ## The instructions -/

/-- AMOADD (R252). -/
def execAmoadd (d a b : Reg) (o : BitVec 2) (z : BitVec 1) (s : State) : Host.Outcome State Fault Refusal :=
  runInstr (.amoadd d a b o z) (amoBody 0 d a b o z) s

/-- AMOAND (R252). -/
def execAmoand (d a b : Reg) (o : BitVec 2) (z : BitVec 1) (s : State) : Host.Outcome State Fault Refusal :=
  runInstr (.amoand d a b o z) (amoBody 1 d a b o z) s

/-- AMOOR (R252). -/
def execAmoor (d a b : Reg) (o : BitVec 2) (z : BitVec 1) (s : State) : Host.Outcome State Fault Refusal :=
  runInstr (.amoor d a b o z) (amoBody 2 d a b o z) s

/-- AMOXOR (R252). -/
def execAmoxor (d a b : Reg) (o : BitVec 2) (z : BitVec 1) (s : State) : Host.Outcome State Fault Refusal :=
  runInstr (.amoxor d a b o z) (amoBody 3 d a b o z) s

/-- AMOMIN (R252). -/
def execAmomin (d a b : Reg) (o : BitVec 2) (z : BitVec 1) (s : State) : Host.Outcome State Fault Refusal :=
  runInstr (.amomin d a b o z) (amoBody 4 d a b o z) s

/-- AMOMAX (R252). -/
def execAmomax (d a b : Reg) (o : BitVec 2) (z : BitVec 1) (s : State) : Host.Outcome State Fault Refusal :=
  runInstr (.amomax d a b o z) (amoBody 5 d a b o z) s

/-- AMOMINU (R252). -/
def execAmominu (d a b : Reg) (o : BitVec 2) (z : BitVec 1) (s : State) : Host.Outcome State Fault Refusal :=
  runInstr (.amominu d a b o z) (amoBody 6 d a b o z) s

/-- AMOMAXU (R252). -/
def execAmomaxu (d a b : Reg) (o : BitVec 2) (z : BitVec 1) (s : State) : Host.Outcome State Fault Refusal :=
  runInstr (.amomaxu d a b o z) (amoBody 7 d a b o z) s

/-- AMOSWP (R252). -/
def execAmoswp (d a b : Reg) (o : BitVec 2) (z : BitVec 1) (s : State) : Host.Outcome State Fault Refusal :=
  runInstr (.amoswp d a b o z) (amoBody 8 d a b o z) s

/-- CAS (R253). -/
def execCas (d a b : Reg) (o : BitVec 2) (z : BitVec 1) (s : State) : Host.Outcome State Fault Refusal :=
  runInstr (.cas d a b o z) (casBody d a b o z) s

/-- CAS2 (R254). -/
def execCas2 (d a b : Reg) (o : BitVec 2) (s : State) : Host.Outcome State Fault Refusal :=
  runInstr (.cas2 d a b o) (cas2Body d a b o) s

/-- REDADD (R255). -/
def execRedadd (a b : Reg) (o z : BitVec 1) (s : State) : Host.Outcome State Fault Refusal :=
  runInstr (.redadd a b o z) (redaddBody a b o z) s

/-- LDACQ (R256). -/
def execLdacq (d a : Reg) (z : BitVec 2) (s : State) : Host.Outcome State Fault Refusal :=
  runInstr (.ldacq d a z) (ldacqBody d a z) s

/-- STREL (R257). -/
def execStrel (a b : Reg) (z : BitVec 2) (s : State) : Host.Outcome State Fault Refusal :=
  runInstr (.strel a b z) (strelBody a b z) s

/-- FENCE full (R245). -/
def execFence (c : BitVec 2) (s : State) : Host.Outcome State Fault Refusal :=
  runInstr (.fence c) (fenceBody c) s

/-- FENCE acquire (R245). -/
def execFenceAcq (c : BitVec 2) (s : State) : Host.Outcome State Fault Refusal :=
  runInstr (.fenceAcq c) (fenceAcqBody c) s

/-- FENCE release (R245). -/
def execFenceRel (c : BitVec 2) (s : State) : Host.Outcome State Fault Refusal :=
  runInstr (.fenceRel c) (fenceRelBody c) s

/-- FENCEX (R246). -/
def execFencex (c : BitVec 2) (p q : BitVec 5) (s : State) : Host.Outcome State Fault Refusal :=
  runInstr (.fencex c p q) (fencexBody c p q) s

/-- SFLUSH (R263, R264). -/
def execSflush (a b : Reg) (s : State) : Host.Outcome State Fault Refusal :=
  runInstr (.sflush a b) (flushBody a b) s

/-- SINV (R263, R264). -/
def execSinv (a b : Reg) (s : State) : Host.Outcome State Fault Refusal :=
  runInstr (.sinv a b) (rangeBody a b evictLine) s

/-- SPF (R263, R265). -/
def execSpf (a b : Reg) (s : State) : Host.Outcome State Fault Refusal :=
  runInstr (.spf a b) (spfBody a b) s

/-- MONARM (R267). -/
def execMonarm (d a b : Reg) (s : State) : Host.Outcome State Fault Refusal :=
  runInstr (.monarm d a b) (monarmBody d a b) s

/-- MONDIS (R269). -/
def execMondis (a : Reg) (s : State) : Host.Outcome State Fault Refusal :=
  runInstr (.mondis a) (mondisBody a) s

end Sys2Proof.Machine
end

