-- ==== Sys2Proof/Machine/Fabric.lean ====
section
/-! DEFINITION. The device's Carr switch: packets that arrive and depart, links and their buffers, the
splitting of merged replies, fabric control, switch kernels and their flows, and the instructions of a
Sedge processor (R395 to R427). -/

namespace Sys2Proof.Machine

/-! ## Arrival (R397, R400) -/

/-- Word 0 of a packet's header (R399). -/
def headerWord (p : Packet) : Word :=
  at_ 56 p.ddev.toNat ||| at_ 46 p.dport.toNat ||| at_ 36 p.sport.toNat ||| at_ 30 p.part.toNat ||| at_ 27 p.vc.toNat
    ||| at_ 22 p.kind.toNat ||| at_ 0 p.body.length

/-- A packet that a switch discards (R400). -/
def discarded (s : State) (p : Packet) : Bool := !(inDomain s p.ddev.toNat) || !(kindAdmits p.kind.toNat p.body)

/-- The RAS record of a discard (R353, R400). -/
def discardRecord (s : State) (p : Packet) : State :=
  rasRecord s 8 7 p.part (p.sdev.toNat * 2 ^ 18 + p.sport.toNat) (headerWord p)

/-- A class loaded on this switch (R423). -/
def loadedClass (s : State) (part : BitVec 6) (c : BitVec 8) : Option FlowClass :=
  s.fab.loaded.find? fun x => decide (x.part = part) && decide (x.cls = c)

/-- A message whose class is loaded here, at its destination (R423). -/
def isClassified (s : State) (p : Packet) : Bool :=
  decide (p.kind = 1) && decide (p.ddev.toNat = ownDev s) && (loadedClass s p.part p.flow).isSome

/-- The switch takes a packet (R397, R398, R400): it waits for its kernel, in the order in which it came (R424), or
at the output of its route. [log 45: DESIGN CHOICE] -/
def switchTakes (s : State) (o : Origin) (p : Packet) (g : List AtomRequest) : State :=
  if discarded s p then freeBuffer (discardRecord s p) o p
  else if isClassified s p then { s with fab := { s.fab with waiting := s.fab.waiting ++ [.packet p o] } }
  else match outputFor s p.sdev.toNat p.ddev.toNat with
    | some out => enqueue s out o p g
    | none => freeBuffer (unreached s p) o p

/-! ## Splitting a merged reply (R409) -/

/-- A reply carries the number of an entry of this switch. -/
def isOwnReply (s : State) (p : Packet) : Bool :=
  decide (p.kind = 0x0D) && decide (p.ddev.toNat = ownDev s) && (p.tags.head?.any fun t => decide (t.1.toNat = ownDev s))

/-- A member of a group that was not performed, each of whose posted requests leaves a RAS record (R410). -/
def lostMember (s : State) (p : Packet) (m : Member) : State :=
  if p.poison = 0 then s else m.lost.foldl (fun s c => rasRecord s 6 2 p.part c.toNat (zextField p.pa)) s

/-- The reply to a member of a group: the old value that it sees, or the poison of the target (R409, R410). -/
def memberReply (p : Packet) (m : Member) (v : Nat) : Packet :=
  { p with ddev := m.dev, dport := m.port, tags := m.tags, body := toBytes 8 v }

/-- An ATOMR packet at this switch (R409): a reply to an entry here is split, the reply to a group within it again;
`n` bounds the depth. -/
def replyArrives : Nat → State → Origin → Packet → State
  | 0, s, o, p => switchTakes s o p []
  | n + 1, s, o, p =>
    if !(isOwnReply s p) then switchTakes s o p []
    else
      match s.fab.wait.find? fun e => decide (some e.id = p.tags.head?.map (·.2)) with
      | none => freeBuffer s o p
      | some e =>
        let v := ofBytes p.body % 2 ^ (8 * e.size)
        let s := freeBuffer { s with fab := { s.fab with wait := s.fab.wait.erase e } } o p
        let send := fun (s : State) (m : Member) (v : Nat) =>
          if m.posted then lostMember s p m else replyArrives n s .own (memberReply p m v)
        send (send s e.first v) e.second ((v + e.sum.toNat) % 2 ^ (8 * e.size))

/-- The switch takes a packet, a reply of its own among them. -/
def switchReceives (s : State) (o : Origin) (p : Packet) (g : List AtomRequest) : State :=
  if isOwnReply s p && !(discarded s p) then replyArrives (s.fab.wait.length + 1) s o p else switchTakes s o p g

/-- A packet arrives on a link and occupies the port's buffer (R405). -/
def packetArrives (s : State) (l : Nat) (p : Packet) : State :=
  if !(isConnected s l) || (linkOf s l).down then s
  else
    let x := linkOf s l
    let v := p.vc.toNat
    let s := setLink s l { x with received := addTo x.received v (flits p), occ := addTo x.occ v (flits p) }
    switchReceives s (.link l) p (packetGroup p)

/-! ## Departure (R395, R402, R404, R406, R418) -/

/-- A message at this core's port finds no slot of its kind, so that it stays in its queue (R140, R364, R404); a spawn
is refused instead (R153), and what comes for a partition that is not resident waits at the port (R363). -/
def portBlocks (s : State) (p : Packet) : Bool :=
  decide (p.dport = corePort s.cpu.coreId) && decide (p.kind = 1) && isResident s p.part && !s.cpu.poweredOff
    && !(bit (dword p.body 0) 62) && !p.spawn && (s.cpu.lateRing.isSome || !(messageFits s (dword p.body 0)))

/-- A packet of an emit buffer waits for one that was emitted before it (R418). -/
def emitAhead (s : State) (q : Queued) : Bool :=
  match q.origin with
  | .sedge n => s.fab.outputs.any fun o => o.2.any fun x => decide (x.origin = .sedge n) && decide (x.age < q.age)
  | _ => false

/-- An output can serve a packet: its group is whole, its port or the sender's limit admits it. -/
def admits (s : State) (out v : Nat) (q : Queued) : Bool :=
  if awaitsGroup s q || emitAhead s q then false
  else if out < 30 then
    let x := linkOf s out
    !x.down && decide (x.inFlight.get v + flits q.packet ≤ limitIn x.limit v)
  else if 32 ≤ out && decide (out < 36) then !(portBlocks s q.packet)
  else true

/-- The VCs that an output may serve next. -/
def servable (s : State) (out : Nat) : List Nat :=
  (List.range 8).filter fun v => (s.fab.outputs.get (out * 8 + v)).head?.any (admits s out v)

/-- The VC that an output serves (R395, R402): 3 and 7 first, by age; the others in rotation. -/
def nextVc (s : State) (out : Nat) : Option Nat :=
  let vs := servable s out
  let age := fun (v : Nat) => ((s.fab.outputs.get (out * 8 + v)).head?.map (·.age)).getD 0
  if vs.contains 3 && (!(vs.contains 7) || decide (age 3 < age 7)) then some 3
  else if vs.contains 7 then some 7
  else
    let turn := [0, 1, 2, 4, 5, 6]
    let last := s.fab.served.get out
    ((turn.filter fun v => decide (last < v)) ++ turn.filter fun v => decide (v ≤ last)).find? vs.contains

/-- A packet goes from the switch into the F-die crossbar, and leaves an emit buffer (R418); of a link's buffer it
holds its part until it has reached its port (R404). -/
def intoCrossbar (s : State) (q : Queued) : State :=
  let o := match q.origin with
    | .sedge _ => Origin.own
    | o => o
  enqueue s (portOutput q.packet.dport) o q.packet []

/-- A packet leaves on a link (R406). -/
def ontoLink (s : State) (out v : Nat) (q : Queued) : State :=
  let s := freeBuffer s q.origin q.packet
  let x := linkOf s out
  setLink { s with fab := { s.fab with departed := s.fab.departed ++ [q.packet] } } out
    { x with inFlight := addTo x.inFlight v (flits q.packet), sent := x.sent ++ [q.packet] }

/-- A packet leaves an output (R395, R402): on its link, into the F-die crossbar, to a port of a die or the CFE, or
to the switch. [log 51: DESIGN CHOICE] -/
def packetDeparts (s : State) (out : Nat) : State :=
  match nextVc s out with
  | none => s
  | some v =>
    match s.fab.outputs.get (out * 8 + v) with
    | [] => s
    | q :: rest =>
      let s := { s with fab := { s.fab with outputs := s.fab.outputs.set (out * 8 + v) rest, served := if v = 3 || v = 7 then s.fab.served else s.fab.served.set out v } }
      let s := if out ≤ 30 && decide (1 < q.group.length) then logChoice s (groupRecord q.packet.part q.packet.pa q.ids) else s
      if out < 30 then ontoLink s out v q
      else if out = 30 then intoCrossbar s q
      else if out = 37 then switchReceives s .own q.packet q.group
      else deliver (freeBuffer s q.origin q.packet) q.packet

/-- Queued packets by age. -/
def insertAge (q : Queued) : List Queued → List Queued
  | [] => [q]
  | x :: t => if q.age < x.age then q :: x :: t else x :: insertAge q t

/-- What waited for a route that has changed takes the new one, once what was sent on the old one has arrived (R398):
when that is, is free. [log 44: DESIGN CHOICE] -/
def routesChanged (s : State) : State :=
  let waiting := (List.range 8).flatMap fun v => s.fab.outputs.get (31 * 8 + v)
  let s := { s with fab := { s.fab with
      changing := []
      outputs := (List.range 8).foldl (fun (t : Table (List Queued)) v => t.set (31 * 8 + v) []) s.fab.outputs } }
  waiting.foldl (fun s q =>
    match outputFor s q.packet.sdev.toNat q.packet.ddev.toNat with
    | some o =>
      let key := o * 8 + q.packet.vc.toNat
      { s with fab := { s.fab with outputs := s.fab.outputs.set key (s.fab.outputs.get key ++ [q]) } }
    | none => freeBuffer (unreached s q.packet) q.origin q.packet) s

/-- PACKET_FORWARD (R395, R397, R402). -/
def execPacketForward (m : SwitchMove) (s : State) : Host.Outcome State Fault Refusal :=
  .next (unlessMinimal s (match m with
    | .arrive l p => packetArrives s l.toNat p
    | .depart out => if 37 < out.toNat then s else if out = 31 then routesChanged s else packetDeparts s out.toNat))

/-! ## Links (R398, R405 to R407) -/

/-- CONTROL_FLIT (R406, R407): new limits, and credits; flits that the credits cover have arrived. One that fails its
CRC is not taken. [log 44: DESIGN CHOICE] -/
def controlArrives (s : State) (l : Nat) (f : List Byte) : State :=
  if !(isConnected s l) || (linkOf s l).down || !(controlFlitOk f) then s
  else
    let x := linkOf s l
    let limit := if bit (dword f 0) 0 then (List.range 8).foldl (fun (t : Table Nat) v => t.set v (controlField f 1 v)) x.limit else x.limit
    let credit := controlField f 3
    let left := (List.range 8).foldl (fun (t : Table Nat) v => t.set v (x.inFlight.get v - credit v)) x.inFlight
    let trim := fun (acc : List Packet) (p : Packet) =>
      let used := (acc.filter fun q => decide (q.vc = p.vc)).foldl (fun n q => n + flits q) 0
      if used + flits p ≤ left.get p.vc.toNat then p :: acc else acc
    setLink s l { x with limit := limit, inFlight := left, sent := x.sent.reverse.foldl trim [], replays := if (List.range 8).any fun v => decide (credit v ≠ 0) then 0 else x.replays }

/-- CONTROL_FLIT. -/
def execControlFlit (link : BitVec 5) (f : List Byte) (s : State) : Host.Outcome State Fault Refusal := .next (controlArrives s link.toNat f)

/-- The targets of R405 from the flits of a period. [log 44: DESIGN CHOICE] -/
def targetsOf (u : Table Nat) : Table Nat :=
  let total := (List.range 8).foldl (fun n v => n + u.get v) 0
  if total = 0 then (List.range 8).foldl (fun (t : Table Nat) v => t.set v 1024) []
  else
    let t := (List.range 8).foldl (fun (t : Table Nat) v => t.set v (512 + 4096 * u.get v / total)) []
    let sum := (List.range 8).foldl (fun n v => n + t.get v) 0
    t.set 3 (t.get 3 + (8192 - sum))

/-- LIMIT_PERIOD (R405, R406): new targets, and an announcement. -/
def execLimitPeriod (link : BitVec 5) (s : State) : Host.Outcome State Fault Refusal :=
  let l := link.toNat
  let x := linkOf s l
  .next (if isConnected s l && !x.down then setLink s l (sendControl { x with target := targetsOf x.received, received := [] } true) else s)

/-- The device that a sharer lies on. -/
def sharerDev (s : State) (h : Sharer) : Nat :=
  match h with
  | .peer d => d.toNat / 4
  | .stash _ => ownDev s

/-- What the core awaits from devices that no path reaches any more (R398): its lines and its atomics give poison, its
exchanges end, and no acknowledgement comes from there. [log 44: DESIGN CHOICE] -/
def failRequests (s : State) : State :=
  let gone := fun (d : Nat) => !(reachable s d)
  let lost := s.cpu.inFlight.filter fun a => gone a.dev.toNat
  let s := { s with
    mem := { s.mem with requested := s.mem.requested.filter fun r => !(gone r.line.dev.toNat), removals := s.mem.removals.filter fun r => !(gone r.1.dev.toNat) }
    cpu := { s.cpu with acks := s.cpu.acks.filter fun a => !(gone (sharerDev s a.src)) } }
  finishExchanges (settle (lost.foldl (fun s a => answer s a.id none) s))

/-- The set of links that are down changes (R398): what a failed link's replay buffer holds, and what waits at the
links, goes on when the routes have changed, in the order in which it was to leave. [log 44: DESIGN CHOICE] -/
def rechoose (s : State) (resent : List Packet) : State :=
  let ahead := resent.map fun p => ({ packet := p, age := 0, group := packetGroup p, origin := .own } : Queued)
  let queued := fun (v : Nat) => ((List.range 30).flatMap fun l => s.fab.outputs.get (l * 8 + v)).foldl (fun acc q => insertAge q acc) []
  let later := fun (v : Nat) => (ahead.filter fun q => decide (q.packet.vc.toNat = v)) ++ queued v ++ s.fab.outputs.get (31 * 8 + v)
  let left := (List.range 240).foldl (fun (t : Table (List Queued)) k => t.set k []) s.fab.outputs
  let others := (List.range 256).filter fun d => inDomain s d && decide (d ≠ ownDev s)
  failRequests { s with fab := { s.fab with
    outputs := (List.range 8).foldl (fun (t : Table (List Queued)) v => t.set (31 * 8 + v) (later v)) left
    changing := others.map (BitVec.ofNat 8) } }

/-- A link of this device goes down (R398), which the firmware reports to the host. [log 44: DESIGN CHOICE] -/
def linkFails (s : State) (l : Nat) : State :=
  if !(isConnected s l) || (linkOf s l).down then s
  else
    let x := linkOf s l
    let s := setLink s l { x with down := true, sent := [], inFlight := [], replays := 0 }
    rechoose { s with fab := { s.fab with reported := s.fab.reported ++ [BitVec.ofNat 5 l] } } x.sent

/-- A link of a device goes down or comes back: one of this device, or one of another that its routes use (R398). -/
def linkChanges (s : State) (dev : BitVec 8) (link : BitVec 5) (down : Bool) : State :=
  let l := link.toNat
  if dev.toNat = ownDev s then
    if down then linkFails s l
    else if isConnected s l && (linkOf s l).down then rechoose (setLink s l { linkOf s l with down := false, replays := 0 }) []
    else s
  else
    let rest := s.fab.farDown.filter fun x => decide (x ≠ (dev, link))
    if s.fab.farDown.contains (dev, link) = down then s
    else rechoose { s with fab := { s.fab with farDown := if down then rest ++ [(dev, link)] else rest } } []

/-- LINK_DOWN. -/
def execLinkDown (l : LinkEnd) (s : State) : Host.Outcome State Fault Refusal := .next (linkChanges s l.dev l.link true)

/-- LINK_REPLAY (R398): the sixteenth replay in a row takes the link down. [log 88: DESIGN CHOICE] -/
def execLinkReplay (link : BitVec 5) (s : State) : Host.Outcome State Fault Refusal :=
  let l := link.toNat
  let x := linkOf s l
  .next (if !(isConnected s l) || x.down then s
    else if x.replays + 1 < 16 then setLink s l { x with replays := x.replays + 1 }
    else linkFails s l)

/-- LINK_UP. -/
def execLinkUp (l : LinkEnd) (s : State) : Host.Outcome State Fault Refusal := .next (linkChanges s l.dev l.link false)

/-! ## Fabric control (R32, R359, R400, R412) -/

/-- TIME takes the grandmaster's time, and never steps backwards (R32, R412). [log 52: DESIGN CHOICE] -/
def synchronise (s : State) (t : Word) : State :=
  if s.cpu.poweredOff then s
  else { s with cpu := { s.cpu with time := if s.cpu.synced && decide (t.toNat < s.cpu.time.toNat) then s.cpu.time else t, synced := true } }

/-- A CTRL packet of this device's CFE to another device's (R400, R401). -/
def controlPacket (s : State) (dev : Nat) (c : Control) : Packet :=
  { ddev := BitVec.ofNat 8 dev, dport := cfePort, sport := cfePort, part := 0, vc := 7, kind := 0x0F, sdev := BitVec.ofNat 8 (ownDev s), flow := 0, pa := 0, body := controlBytes c }

/-- The other devices of the domain. -/
def otherDevices (s : State) : List Nat := (List.range 256).filter fun d => inDomain s d && decide (d ≠ ownDev s)

/-- This device is the domain's grandmaster (R412). -/
def isGrandmaster (s : State) : Bool := decide (ownDev s = 0)

/-- The grandmaster sends its time to another device, by a free choice (R412). [log 52: DESIGN CHOICE] -/
def sendTime (s : State) : State :=
  match otherDevices s with
  | [] => s
  | d :: ds =>
    if !(isGrandmaster s) || !s.cpu.synced then s
    else
      let x := draw s (ds.length + 1)
      inject x.2 (controlPacket x.2 ((d :: ds).getD x.1 d) (.time x.2.cpu.time)) []

/-- CTRL (R400, R412): time, which the grandmaster takes from no other device; a report of another switch's
discard; or the instant of a partition's slice, which this core takes when the partition is resident. -/
def execCtrl (c : Control) (s : State) : Host.Outcome State Fault Refusal :=
  .next (unlessMinimal s (match c with
    | .time t => if isGrandmaster s then s else synchronise s t
    | .switchError w0 w1 => rasWrite s [w0, w1, s.cpu.time, 0]
    | .sliceAgreement part t =>
      let s := { s with cfe := { s.cfe with partitions := s.cfe.partitions.map fun p => if p.id = part then { p with slat := t } else p } }
      if isResident s part then { s with cpu := { s.cpu with slat := t } } else s))

/-! ## Kernels and flows (R421 to R427) -/

/-- The flow id of a message's body under a class: payload word FIDW (R423). -/
def flowId (c : FlowClass) (p : Packet) : Word := dword p.body (2 + c.fidw)

/-- The flow of what waits. -/
def workKey (s : State) (w : KernelWork) : FlowKey :=
  match w with
  | .timeout k => k
  | .packet p _ => { part := p.part, cls := p.flow, fid := ((loadedClass s p.part p.flow).map fun c => flowId c p).getD 0 }

/-- An invocation of the flow runs. -/
def flowRuns (s : State) (k : FlowKey) : Bool :=
  (List.range 16).any fun n => (s.fab.sedge.get n).any fun i => decide (flowKey i = k)

/-- The places of the waiting list that may start: no invocation of the flow runs, and nothing of the
flow is ahead (R424, R427). [log 46: DESIGN CHOICE] -/
def startable (s : State) : List Nat :=
  (List.range s.fab.waiting.length).filter fun i =>
    match s.fab.waiting[i]? with
    | none => false
    | some w =>
      let k := workKey s w
      !(flowRuns s k) && !((s.fab.waiting.take i).any fun x => decide (workKey s x = k))

/-- The record of a key. -/
def flowRecord (s : State) (k : FlowKey) : Option FlowRecord := s.fab.records.find? fun r => decide (r.key = k)

/-- Free a record. -/
def freeRecord (s : State) (k : FlowKey) : State := withRecords s (s.fab.records.filter fun r => decide (r.key ≠ k))

/-- A further flow of the class finds room (R421, R423). [log 53: DESIGN CHOICE] -/
def hasQuota (s : State) (c : FlowClass) : Bool :=
  let all := s.fab.records.foldl (fun n r => n + r.recs) 0
  let mine := (s.fab.records.filter fun r => decide (r.key.part = c.part)).foldl (fun n r => n + r.recs) 0
  decide (all + c.recs ≤ 65536) && decide (mine + c.recs ≤ Config.recordQuota c.part)

/-- An invocation with its registers of R421. -/
def newInvocation (c : FlowClass) (fid : Word) (timeout : Bool) (packet : Option Packet) (o : Origin) : Invocation :=
  let body := (packet.map (·.body)).getD []
  { cls := c, fid := fid, timeout := timeout, packet := packet, origin := o, window := putBytes [] 0 body, len := body.length, scratch := [],
    pc := if timeout then word (4 * c.timeout) else 0, x := Table.set (Table.set (Table.set [] 3 (word (bnat timeout))) 4 (word body.length)) 5 fid, v := [], k := [], fpctl := 0, vflane := 0, cycles := 0 }

/-- A value that the spec does not state. [log 47: DESIGN CHOICE] -/
def freeWord (s : State) : State × Word :=
  let d := draw s (2 ^ 64)
  (d.2, word d.1)

/-- A runtime trap whose value word the spec does not name (R426). [log 47: DESIGN CHOICE] -/
def trapFree (s : State) (n reason : Nat) : State :=
  let w := freeWord s
  kernelTrap w.1 n reason w.2

/-- Start a packet's invocation on a processor (R423, R426). -/
def startPacket (s : State) (n : Nat) (c : FlowClass) (p : Packet) (o : Origin) : State :=
  let i := newInvocation c (flowId c p) false (some p) o
  let s := setSedge s n (some i)
  let h := dword p.body 0
  if p.body.length ≠ 64 || decide (23 < hdrLevel h) then trapFree s n 4
  else if (flowRecord s (flowKey i)).isSome then s
  else if hasQuota s c then
    let r : FlowRecord := { key := flowKey i, recs := c.recs, data := [], poison := [], since := s.cpu.time, fired := false }
    { s with fab := { s.fab with records := s.fab.records ++ [r] } }
  else trapFree s n 5

/-- Start what waits at a place on a processor (R424, R425). -/
def startWork (s : State) (i n : Nat) : State :=
  match s.fab.waiting[i]? with
  | none => s
  | some w =>
    let s := { s with fab := { s.fab with waiting := s.fab.waiting.eraseIdx i } }
    match w with
    | .packet p o =>
      (match loadedClass s p.part p.flow with
      | some c => startPacket s n c p o
      | none => switchTakes s o p [])
    | .timeout k =>
      match flowRecord s k, loadedClass s k.part k.cls with
      | some r, some c =>
        if !r.fired then s
        else if c.timeout = 0 then freeRecord s k
        else setSedge s n (some (newInvocation c k.fid true none .own))
      | _, _ => s

/-- The free processors. -/
def freeSedge (s : State) : List Nat := (List.range 16).filter fun n => (s.fab.sedge.get n).isNone

/-- KERNEL_INVOKE (R423, R427): which of the startable starts, and where, is free. [log 46: DESIGN CHOICE] -/
def invokeKernel (s : State) : State :=
  let ready := startable s
  let free := freeSedge s
  if ready.isEmpty || free.isEmpty then s
  else
    let d := draw s ready.length
    let e := draw d.2 free.length
    startWork e.2 (ready.getD d.1 0) (free.getD e.1 0)

/-- KERNEL_INVOKE. -/
def execKernelInvoke (s : State) : Host.Outcome State Fault Refusal := .next (invokeKernel s)

/-- A flow's timer has reached TMO (R423, R424). -/
def timerDue (s : State) (k : FlowKey) : Bool :=
  match flowRecord s k, loadedClass s k.part k.cls with
  | some r, some c => !r.fired && decide (c.tmo ≠ 0) && decide (r.since.toNat + 1000 * c.tmo ≤ s.cpu.time.toNat)
  | _, _ => false

/-- FLOW_TIMEOUT (R424, R425): the timer fires, and its invocation, or the freeing of the record, follows
what reached the switch before; at once when nothing is ahead and a processor is free. -/
def flowTimesOut (s : State) (k : FlowKey) : State :=
  if !(timerDue s k) then s
  else
    let fire := fun (r : FlowRecord) => if r.key = k then { r with fired := true } else r
    let i := s.fab.waiting.length
    let s := { s with fab := { s.fab with records := s.fab.records.map fire, waiting := s.fab.waiting ++ [.timeout k] } }
    let noEntry := (loadedClass s k.part k.cls).any fun c => decide (c.timeout = 0)
    match (startable s).contains i, (freeSedge s).head? with
    | true, some n => startWork s i n
    | true, none => if noEntry then startWork s i 0 else s
    | false, _ => s

/-- FLOW_TIMEOUT. -/
def execFlowTimeout (key : FlowKey) (s : State) : Host.Outcome State Fault Refusal := .next (flowTimesOut s key)

/-- DEADLINE (R426): an invocation that has run for 2048 cycles is stopped. -/
def execDeadline (proc : BitVec 4) (s : State) : Host.Outcome State Fault Refusal :=
  .next (match s.fab.sedge.get proc.toNat with
    | some i => if 2048 ≤ i.cycles then trapFree s proc.toNat 1 else s
    | none => s)

/-! ## The instructions (R416 to R419) -/

/-- LOOPB (R417). -/
def loopBody (d : Reg) (n : BitVec 8) (o : BitVec 12) (s : State) : Res :=
  if (readX s d).toNat < n.toNat then .jump (writeX s d (readX s d + 1)) (readPc s - zextField o * 2) else .ok s

/-- LOOPB. -/
def execLoopb (d : Reg) (n : BitVec 8) (o : BitVec 12) (s : State) : Host.Outcome State Fault Refusal := runInstr (.loopb d n o) (loopBody d n o) s

/-- A target of a kernel's packet (R418): well formed, in the domain, and in a rectangle of the kernel's
partition as this device's CFE holds them. -/
def kernelTarget (s : State) (part : BitVec 6) (x : Word) : Bool :=
  idWellFormed x && inDomain s (idDev (coreOf x)) &&
    (s.cfe.partitions.any fun p => decide (p.id = part) && p.prect.any fun r => bit r 63 && inRect r (coreOf x))

/-- The processor and invocation that run. -/
def runningKernel (s : State) : Option (Nat × Invocation) :=
  match s.own.turn with
  | .sedge n => (s.fab.sedge.get n).map fun i => (n, i)
  | _ => none

/-- Packets of a processor's emit buffer that have not left the switch (R418). -/
def emitUsed (s : State) (n : Nat) : Nat :=
  s.fab.outputs.foldl (fun k q => k + (q.2.filter fun x => decide (x.origin = .sedge n)).length) 0
    + s.fab.waiting.countP (fun w => match w with
      | .packet _ o => decide (o = .sedge n)
      | .timeout _ => false)
    + s.fab.sedge.countP fun x => x.2.any fun i => i.packet.isSome && decide (i.origin = .sedge n)

/-- PKTEMIT (R418). -/
def emitBody (a b : Reg) (s : State) : Res :=
  match runningKernel s with
  | none => .done s
  | some (n, i) =>
    let x := readX s a
    let y := readX s b
    if x.toNat % 64 ≠ 0 then .done (kernelTrap s n 6 x)
    else if x.toNat < 0x20000 || decide (0x21000 < x.toNat + 64) then .done (kernelTrap s n 2 x)
    else if 8 ≤ emitUsed s n then .stall s
    else
      let img := (List.range 64).map fun j => i.scratch.get (x.toNat - 0x20000 + j)
      let h := dword img 0
      let t := dword img 1
      if field y 10 54 ≠ 0 then .done (kernelTrap s n 6 y)
      else if imageFormatBad h sendMask then .done (kernelTrap s n 6 h)
      else if !(kernelTarget s i.cls.part t) then .done (kernelTrap s n 6 t)
      else
        let tc := field y 8 2
        let m : Message := { hdr0 := h ||| at_ 56 tc, hdr1 := hdr1Of s (deviceSender s 0xFE), body := (messageOf img).body }
        let p := { messagePacket s (coreOf t) m tc cfePort i.cls.part false with flow := BitVec.ofNat 8 (field y 0 8) }
        .ok (switchTakes s (.sedge n) p [])

/-- PKTEMIT. -/
def execPktemit (a b : Reg) (s : State) : Host.Outcome State Fault Refusal := runInstr (.pktemit a b) (emitBody a b) s

/-- Header word 0 as PKTFWD checks it: as SEND's, with TC and LOGGED ignored (R419). -/
def forwardMask : Word := at_ 59 31 ||| at_ 55 1 ||| at_ 54 1

/-- PKTFWD (R419). -/
def forwardBody (a : Reg) (s : State) : Res :=
  match runningKernel s with
  | none => .done s
  | some (n, i) =>
    let x := readX s a
    let stored := (List.range i.len).map i.window.get
    let h := dword stored 0
    match i.packet with
    | none => .done (kernelTrap s n 6 x)
    | some p =>
      let bytes := stored.take 8 ++ (p.body.drop 8).take 8 ++ stored.drop 16
      if field x 18 6 ≠ 0 || decide (field x 32 32 ≠ 0) || !(kernelTarget s i.cls.part (word (field x 0 18))) then .done (kernelTrap s n 6 x)
      else if imageFormatBad h forwardMask then .done (kernelTrap s n 6 h)
      else
        let q := { p with ddev := BitVec.ofNat 8 (field x 10 8), dport := BitVec.ofNat 10 (field x 0 10), flow := BitVec.ofNat 8 (field x 24 8), body := bytes }
        let o := i.origin
        .done (endInvocation (switchTakes s o q []) n { i with packet := none })

/-- PKTFWD. -/
def execPktfwd (a : Reg) (s : State) : Host.Outcome State Fault Refusal := runInstr (.pktfwd a) (forwardBody a) s

/-- PKTDROP (R419). -/
def dropBody (s : State) : Res :=
  match runningKernel s with
  | none => .done s
  | some (n, i) => .done (endInvocation s n i)

/-- PKTDROP. -/
def execPktdrop (s : State) : Host.Outcome State Fault Refusal := runInstr .pktdrop dropBody s

end Sys2Proof.Machine
end

