-- ==== Sys2Proof/Machine/Launch.lean ====
section
/-! DEFINITION. Queue programs and their signals, gang launches, range launches, the end of a gang,
and the end of a replay hold (R72, R156, R391, R420, R440 to R447). -/

namespace Sys2Proof.Machine

/-! ## The instructions of queue programs (R420) -/

/-- The execution slot that runs, with its invocation and its queue. -/
def runningProgram (s : State) : Option (Nat × QpRun × Queue) :=
  match s.own.turn with
  | .cfe n => match s.cfe.slots.get n with
    | some r => (s.cfe.queues.get r.queue).map fun q => (n, r, q)
    | none => none
  | _ => none

/-- The place of a signal of a partition among the counts. -/
def signalKey (part : BitVec 6) (n : Nat) : Nat := part.toNat * 256 + n

/-- The first waiter for a signal whose increment has not come gets it. -/
def wakeFirst (part : BitVec 6) (n : BitVec 8) : List Waiter → Option (List Waiter)
  | [] => none
  | w :: t =>
    if !w.ready && decide (w.part = part) && decide (w.signal = n) then some ({ w with ready := true } :: t)
    else (wakeFirst part n t).map (w :: ·)

/-- The count of a signal goes up by one, saturating, or at once down again for the first waiter (R420). -/
def raiseSignal (s : State) (part : BitVec 6) (n : BitVec 8) : State :=
  match wakeFirst part n s.cfe.waiters with
  | some l => { s with cfe := { s.cfe with waiters := l } }
  | none =>
    let c := s.cfe.signals.get (signalKey part n.toNat)
    { s with cfe := { s.cfe with signals := s.cfe.signals.set (signalKey part n.toNat) (if c = BitVec.allOnes 32 then c else c + 1) } }

/-- SIGNAL (R420, R441): a number outside SETS, or above 255, ends the program. -/
def signalBody (a : Reg) (s : State) : Res :=
  match runningProgram s with
  | none => .done s
  | some (n, r, q) =>
    let x := readX s a
    let k := BitVec.ofNat 8 (field x 0 8)
    if field x 8 56 ≠ 0 || !(r.sets.contains k) then .done (queueFault s n)
    else .ok (raiseSignal s q.part k)

/-- SIGNAL. -/
def execSignal (a : Reg) (s : State) : Host.Outcome State Fault Refusal := runInstr (.signal a) (signalBody a) s

/-- PARKQ (R420): a positive count goes down; otherwise the program gives up its slot and waits. -/
def parkqBody (a : Reg) (s : State) : Res :=
  match runningProgram s with
  | none => .done s
  | some (n, r, q) =>
    let x := readX s a
    let k := BitVec.ofNat 8 (field x 0 8)
    let c := s.cfe.signals.get (signalKey q.part k.toNat)
    if field x 8 56 ≠ 0 then .done (queueFault s n)
    else if c ≠ 0 then .ok { s with cfe := { s.cfe with signals := s.cfe.signals.set (signalKey q.part k.toNat) (c - 1) } }
    else
      let w : Waiter := { run := { r with pc := r.pc + 4 }, signal := k, part := q.part, since := s.cpu.time, examined := false, ready := false }
      .done (setSlot { s with cfe := { s.cfe with waiters := s.cfe.waiters ++ [w] } } n none)

/-- PARKQ. -/
def execParkq (a : Reg) (s : State) : Host.Outcome State Fault Refusal := runInstr (.parkq a) (parkqBody a) s

/-- LAUNCH (R420, R443, R446): the header, with the range block after it for a range launch, is read from
the windows and queued. -/
def launchBody (a b : Reg) (s : State) : Res :=
  match runningProgram s with
  | none => .done s
  | some (n, r, q) =>
    let x := readX s a
    let y := readX s b
    if field y 32 31 ≠ 0 then .done (queueFault s n)
    else
      (queueLoad s r x.toNat 64).run fun s header =>
        let block := if bit y 63 then queueLoad s r (x.toNat + 64) 24 else .ok s []
        block.run fun s range =>
          let l : Launch := { gang := BitVec.ofNat 32 (field y 0 32), range := bit y 63, part := q.part, header := header, block := range, queue := r.queue, index := q.taken, tag := commandTag r.command }
          let owed := if r.launched then q.owed else q.owed ++ [q.taken]
          .ok (setSlot (setQueue { s with cfe := { s.cfe with launches := s.cfe.launches ++ [l] } } r.queue (some { q with owed := owed })) n (some { r with launched := true }))

/-- LAUNCH. -/
def execLaunch (a b : Reg) (s : State) : Host.Outcome State Fault Refusal := runInstr (.launch a b) (launchBody a b) s

/-! ## Invocation of queue programs (R441, R442) -/

/-- A queue with a command that its program can take. -/
def queueReady (s : State) (q : Nat) : Bool :=
  match userQueue s q with
  | some x => x.loaded && !x.busy && !x.commands.isEmpty
  | none => false

/-- The next ready queue in the rotation by number. [log 64: DESIGN CHOICE] -/
def nextQueue (s : State) : Option Nat :=
  ((List.range 255).map fun i => (s.cfe.lastQueue + i) % 255 + 1).find? (queueReady s)

/-- The free execution slots. [log 64: DESIGN CHOICE] -/
def freeSlots (s : State) : List Nat := (List.range 32).filter fun n => (s.cfe.slots.get n).isNone

/-- A queue's program starts on its next command: x3 the queue, x4 the command index. -/
def startProgram (s : State) (n q : Nat) : State :=
  match s.cfe.queues.get q with
  | none => s
  | some x =>
    match x.commands with
    | [] => s
    | c :: rest =>
      let r : QpRun := { queue := q, command := c, prog := x.prog, sets := x.sets, launched := false, scratch := [], pc := 0, x := Table.set (Table.set [] 3 (word q)) 4 (word x.taken), fpctl := 0 }
      setSlot (setQueue { s with cfe := { s.cfe with lastQueue := q } } q (some { x with commands := rest, busy := true })) n (some r)

/-- The first waiter whose increment has come goes on in a slot (R420). -/
def resumeProgram (s : State) (n : Nat) : State :=
  match s.cfe.waiters.find? (·.ready) with
  | none => s
  | some w => setSlot { s with cfe := { s.cfe with waiters := s.cfe.waiters.erase w } } n (some w.run)

/-- QUEUE_PROGRAM_INVOKE (R420, R441): a free slot takes a waiter or a queue's command; which of the two
comes first is free. -/
def invokeProgram (s : State) : State :=
  match freeSlots s with
  | [] => s
  | n :: _ =>
    let ready := s.cfe.waiters.any (·.ready)
    match nextQueue s with
    | none => if ready then resumeProgram s n else s
    | some q =>
      if ready then
        let d := draw s 2
        if d.1 = 0 then startProgram d.2 n q else resumeProgram d.2 n
      else startProgram s n q

/-- QUEUE_PROGRAM_INVOKE. -/
def execQueueProgramInvoke (s : State) : Host.Outcome State Fault Refusal := .next (invokeProgram s)

/-- The queues whose invocation waits in PARKQ. -/
def waitingQueues (s : State) : List Nat := (s.cfe.waiters.filter fun w => !w.ready).map (·.run.queue)

/-- The setters of a waiting queue (R442): the queues of its partition whose program lists the signal. [log 68: DEDUCED] -/
def setters (s : State) (q : Nat) : List Nat :=
  match s.cfe.waiters.find? fun w => decide (w.run.queue = q) && !w.ready with
  | none => []
  | some w => (List.range 256).filter fun p => (userQueue s p).any fun x => x.loaded && decide (x.part = w.part) && x.sets.contains w.signal

/-- The waiting queues every setter of whose signal waits too. [log 68: DEDUCED] -/
def stuckQueues (s : State) : List Nat :=
  let l := waitingQueues s
  l.filter fun q => !(setters s q).isEmpty && (setters s q).all l.contains

/-- Queues of a set that one reaches over setters in at most `n` steps. -/
def reachedFrom (s : State) (l : List Nat) : Nat → List Nat → List Nat
  | 0, r => r
  | n + 1, r => reachedFrom s l n (l.filter fun q => r.contains q || r.any fun p => (setters s p).contains q)

/-- The cycle that a waiting queue is part of, in increasing order; empty without one. [log 68: DEDUCED] -/
def cycleOf (s : State) (q : Nat) : List Nat :=
  let stuck := stuckQueues s
  let after := fun (p : Nat) => reachedFrom s stuck 256 ((setters s p).filter stuck.contains)
  if stuck.contains q && (after q).contains q then
    (List.range 256).filter fun p => stuck.contains p && (after q).contains p && (after p).contains q
  else []

/-- A wait of CFEWD.LIMIT ms that has not been examined. [log 64: DESIGN CHOICE] -/
def waitIsLong (s : State) (w : Waiter) : Bool :=
  !w.ready && !w.examined && decide (s.cfe.cfewd ≠ 0) && decide (w.since.toNat + 1000000 * s.cfe.cfewd.toNat ≤ s.cpu.time.toNat)

/-- PARKQ_TIMEOUT (R442). -/
def examineWait (s : State) (q : Nat) : State :=
  match s.cfe.waiters.find? fun w => decide (w.run.queue = q) with
  | none => s
  | some w =>
    if !(waitIsLong s w) then s
    else
      let mark := fun (x : Waiter) => if x = w then { x with examined := true } else x
      let c := cycleOf s q
      let s := { s with cfe := { s.cfe with waiters := s.cfe.waiters.map mark } }
      if c.isEmpty then complete s 0 0 5 (word q)
      else complete s 0 0 4 (wordOf ((c.take 8).map (BitVec.ofNat 8)))

/-- PARKQ_TIMEOUT. -/
def execParkqTimeout (q : BitVec 8) (s : State) : Host.Outcome State Fault Refusal := .next (examineWait s q.toNat)

/-! ## Gang launch (R72, R156, R443, R444) -/

/-- Bytes of a launch header as a number. -/
def headerField (h : List Byte) (off n : Nat) : Nat := ofBytes ((h.drop off).take n)

/-- The cores of a rectangle, in rank order. -/
def rectCores (rect : Word) : List (BitVec 18) := (List.range (rankCount rect)).map (rankCore rect)

/-- The core is a rank of a running gang that has not retired (R445). -/
def inGang (s : State) (id : BitVec 18) : Bool :=
  s.cfe.gangs.any fun g => inRect g.rect id && (List.range (rankCount g.rect)).any fun r => decide (rankCore g.rect r = id) && !(g.retired.contains r)

/-- The first of the conditions 1 to 3 of R443 that a header meets, or 0. [log 66: DESIGN CHOICE] -/
def headerFault (s : State) (l : Launch) : Nat :=
  let rect := dword l.header 2
  let rects := usedRects (((partitionOf s l.part).map (·.prect)).getD [])
  if 23 < headerField l.header 4 1 then 1
  else if bit rect 63 || !(rectUsable rect) || decide (field rect 24 8 ≠ ownDev s) then 2
  else if (rectCores rect).any fun c => !(rects.any fun r => inRect r c) || isFencedCore s c || inGang s c then 3
  else 0

/-- The runs of its partition's memory that a launch reads: the constant block, none for address 0, and the payload
(R443). -/
def launchRuns (l : Launch) : List (Nat × Nat) :=
  let ca := headerField l.header 40 8
  (if ca = 0 then [] else [(ca, 1536)]) ++ [(headerField l.header 48 8, 48)]

/-- Lines of other devices that a launch awaits. -/
def launchMissing (s : State) (l : Launch) : List FarLine :=
  match partitionOf s l.part with
  | none => []
  | some p => ((launchRuns l).flatMap fun r => partMissing s p r.1 r.2).eraseDups

/-- The lines that came for a launch have been used. -/
def launchUsed (s : State) (l : Launch) : State :=
  match partitionOf s l.part with
  | none => s
  | some p => (launchRuns l).foldl (fun s r => partUsed s p r.1 r.2) s

/-- What a launch reads through its partition: the constant block and the payload. -/
def launchBlocks (s : State) (l : Launch) : Option (List Byte × List Word) :=
  match partitionOf s l.part with
  | none => none
  | some p =>
    let read := (launchRuns l).map fun r => (partRead s p r.1 r.2).toOption
    match read with
    | [some payload] => some (List.replicate 1536 0, (List.range 6).map (dword payload))
    | [some consts, some payload] => some (consts, (List.range 6).map (dword payload))
    | _ => none

/-- The work-id fields of a rank (R156). -/
def workFields (widths : List Nat) (w : Word) : List Word :=
  ((List.range 6).foldl (fun (acc : Nat × List Word) f =>
    let n := widths.getD f 0
    (acc.1 + n, acc.2 ++ [word (if n = 0 then 0 else w.toNat / 2 ^ acc.1 % 2 ^ n)])) (0, [])).2

/-- Identity words 192 to 203 of a rank (R27, R156). -/
def identityWords (l : Launch) (rank : Nat) : List Word :=
  let rect := dword l.header 2
  let base := dword l.header 4
  let widths := (List.range 6).map fun f => headerField l.header (24 + f) 1
  [word rank, zextField (rankCore rect rank), zextField l.gang, base] ++ workFields widths (base + word rank) ++ [rect, zextField l.part]

/-- Steps 1 and 2 of R444 for a rank: cores of this cluster take them in their local memory. -/
def launchRank (l : Launch) (consts : List Byte) (s : State) (rank : Nat) : State :=
  let id := rankCore (dword l.header 2) rank
  if clusterOf id = clusterOf s.cpu.coreId then
    let key := coreIndex id * 0x100000
    putLocal (putLocal s key consts) (key + 8 * 192) ((identityWords l rank).flatMap fun w => toBytes 8 w.toNat)
  else s

/-- Step 3 of R444 for this core: membership, and every barrier register idle. -/
def joinGang (s : State) : State :=
  { s with cpu := { s.cpu with member := true, bar := [] }, net := { roots := [], out := [], flips := [], baris := [] } }

/-- Header word 0 of the initial messages (R138, R156). -/
def initialHeader (l : Launch) : Word := at_ 48 (headerField l.header 4 1) ||| at_ 0 (headerField l.header 8 6)

/-- An initial message of the CFE to a core (R138, R156). -/
def initialMessage (s : State) (part : BitVec 6) (hdr0 : Word) (p : List Word) (id : BitVec 18) : State :=
  let m : Message := { hdr0 := hdr0, hdr1 := hdr1Of s (deviceSender s 0xFF), body := { p0 := p.getD 0 0, p1 := p.getD 1 0, p2 := p.getD 2 0, p3 := p.getD 3 0, p4 := p.getD 4 0, p5 := p.getD 5 0 } }
  sendPacket s (messagePacket s id m 0 cfePort part false) []

/-! ## Range launches (R446, R447) -/

/-- The dies that a rectangle touches, in order. -/
def diesOf (rect : Word) : List Nat := (List.range 4).filter fun d => (rectCores rect).any fun c => decide (idDie c = d)

/-- Whole chunks in a run of work ids. -/
def chunksIn (n chunk : Nat) : Nat := ceilDiv n chunk

/-- The split of a range over dies: whole chunks, the earlier dies one more where it is uneven. -/
def splitRange (lo hi chunk : Nat) (dies : List Nat) : List RangeRecord :=
  let k := chunksIn (hi - lo) chunk
  let m := dies.length
  let start := fun (i : Nat) => min hi (lo + chunk * (i * (k / m) + min i (k % m)))
  ((List.range m).zip dies).map fun x => { die := BitVec.ofNat 2 x.2, next := word (start x.1), fin := word (start (x.1 + 1)) }

/-- The records of a range launch and its chunk; a CHUNK outside 1 to 2^32 − 1 is not in the spec, and what
stands for it is free. [log 66: DESIGN CHOICE] -/
def rangeRecords (s : State) (l : Launch) : State × Word × List RangeRecord :=
  let lo := (dword l.block 0).toNat
  let hi := max lo (dword l.block 1).toNat
  let c := (dword l.block 2).toNat
  let d := if 1 ≤ c && decide (c < 2 ^ 32) then (c, s) else (let x := draw s (2 ^ 32 - 1); (x.1 + 1, x.2))
  (d.2, word d.1, splitRange lo hi d.1 (diesOf (dword l.header 2)))

/-- An accepted launch (R444, R446): constants, identities, membership, then the initial messages, which a
range launch leaves to the dies' agents. -/
def acceptLaunch (s : State) (l : Launch) (consts : List Byte) (payload : List Word) : State :=
  let rect := dword l.header 2
  let s := (List.range (rankCount rect)).foldl (launchRank l consts) s
  let s := if inRect rect s.cpu.coreId then joinGang s else s
  let r := if l.range then rangeRecords s l else (s, 0, [])
  let g : Gang := { id := l.gang, part := l.part, rect := rect, queue := l.queue, index := l.index, tag := l.tag, retired := [], fenced := false, chunk := r.2.1, ranges := r.2.2, hdr0 := initialHeader l, payload := payload }
  let s := { r.1 with cfe := { r.1.cfe with gangs := r.1.cfe.gangs ++ [g] } }
  if l.range then s else (rectCores rect).foldl (fun s id => initialMessage s l.part (initialHeader l) payload id) s

/-- GANG_LAUNCH (R443, R444): the first launch that waits is checked and, where it is accepted, carried
out. [log 65: DEDUCED] -/
def launchGang (s : State) : State :=
  match s.cfe.launches with
  | [] => s
  | l :: rest =>
    let taken := { s with cfe := { s.cfe with launches := rest } }
    let k := headerFault s l
    if k ≠ 0 then completeOwed taken l.queue l.index l.tag 6 (word k)
    else if !(launchMissing s l).isEmpty then requestOnce s (launchMissing s l)
    else match launchBlocks s l with
      | none => completeOwed (launchUsed taken l) l.queue l.index l.tag 6 4
      | some (consts, payload) => acceptLaunch (launchUsed taken l) l consts payload

/-- GANG_LAUNCH. -/
def execGangLaunch (s : State) : Host.Outcome State Fault Refusal := .next (launchGang s)

/-- A core's inbox, port and run list hold nothing. -/
def inboxEmpty (s : State) : Bool := (s.cpu.queues.all fun q => q.2.isEmpty) && s.cpu.port.isEmpty

/-- A counter of this core is bound (R150): V of its descriptor. -/
def hasBoundCounter (s : State) : Bool :=
  decide (pageOfCounters s ≠ 0) && (List.range 4096).any fun n => bit (descriptor s n 0) 63

/-- This core is quiescent (R445). [log 67: DESIGN CHOICE] -/
def isQuiescent (s : State) : Bool :=
  isIdle s && s.cpu.trap.isNone && inboxEmpty s && s.eng.q0.isEmpty && s.eng.q1.isEmpty && s.eng.q2.isEmpty && s.cpu.q3.isEmpty && s.cpu.q3Out.isEmpty
    && s.eng.running.isNone && s.eng.waiting.isEmpty && (s.eng.channels.all fun c => c.2.isNone) && s.eng.exchanges.isEmpty
    && (s.cpu.arms.all fun a => a.2.isNone) && (s.cpu.monitors.all fun m => m.2.isNone) && !(hasBoundCounter s)
    && s.cpu.bar.all fun b => !b.2.arm

/-- What a late ring holds for a partition that is away, or the port for it (R363). -/
def lateWork (s : State) (part : BitVec 6) : Bool :=
  s.cpu.latePort.any (fun p => decide (p.1 = part)) || (contextArea s part).any fun a => decide (ringCount s a ≠ 0)

/-- A saved core is quiescent (R445); whether a counter page that it has holds a bound counter is seen once the
partition is back. [log 67: DESIGN CHOICE] -/
def savedQuiescent (s : State) (part : BitVec 6) (c : Context) : Bool :=
  let k := c.cpu
  k.frames.isEmpty && k.trap.isNone && (k.queues.all fun q => q.2.isEmpty) && k.q3.isEmpty && k.q3Out.isEmpty && c.eng.q0.isEmpty && c.eng.q1.isEmpty
    && c.eng.q2.isEmpty && c.eng.waiting.isEmpty && (k.arms.all fun a => a.2.isNone) && (k.monitors.all fun m => m.2.isNone)
    && (k.bar.all fun b => !b.2.arm) && decide (field k.dcbase 13 7 = 0) && !(lateWork s part)

/-- A message or a decrement to this core is on its way: it is about to act, or it waits in the crossbar or
the switch of this device. [log 67: DESIGN CHOICE] -/
def messageComes (s : State) : Bool :=
  (s.own.agenda.any fun a => match a with
    | .message _ _ _ => true
    | .decrement _ => true
    | .park _ => true
    | .arrival (.mdec _ _) => true
    | _ => false)
  || (travelling s).any fun p => [1, 2, 3].contains p.kind.toNat && decide (p.ddev.toNat = ownDev s) && decide (p.dport = corePort s.cpu.coreId)

/-- GANG_END (R445): the other cores of the gang are quiescent, which the event says; this core is when it
is a rank, and no range record holds work. [log 65: DEDUCED; 67: DESIGN CHOICE] -/
def endGang (s : State) (id : BitVec 32) : State :=
  match gangOf s id with
  | none => s
  | some g =>
    let own := isOwnGang s g
    let saved := savedRank s g
    if (own && (!(isQuiescent s) || messageComes s)) || (saved.any fun c => !(savedQuiescent s g.part c) || messageComes s)
        || g.ranges.any fun r => decide (r.next ≠ r.fin) then s
    else
      let s := { s with cfe := { s.cfe with gangs := s.cfe.gangs.filter fun x => decide (x.id ≠ id) } }
      let s := saved.elim s fun c => setContext s c (leftGang c)
      let s := if own then { s with cpu := { s.cpu with member := false, bar := [] }, net := { roots := [], out := [], flips := [], baris := [] } } else s
      completeOwed s g.queue g.index g.tag (if g.fenced then 7 else 0) (zextField id)

/-- GANG_END. -/
def execGangEnd (gang : BitVec 32) (s : State) : Host.Outcome State Fault Refusal := .next (endGang s gang)

/-- The cores of a gang on a die that have not retired. -/
def gangCores (g : Gang) (die : Nat) : List (BitVec 18) :=
  ((List.range (rankCount g.rect)).filter fun r => !(g.retired.contains r) && decide (idDie (rankCore g.rect r) = die)).map (rankCore g.rect)

/-- This core is a rank of the gang that waits for work: idle, with an empty inbox (R446). -/
def ownWaits (s : State) (g : Gang) (die : Nat) : Bool :=
  isOwnGang s g && (gangCores g die).contains s.cpu.coreId && isIdle s && s.cpu.trap.isNone && inboxEmpty s && !(messageComes s)

/-- The cores of a die that may be idle: this one as it is, the others by a free choice. [log 66: DESIGN CHOICE] -/
def idleCores (s : State) (g : Gang) (die : Nat) : List (BitVec 18) :=
  (gangCores g die).filter fun c => decide (c ≠ s.cpu.coreId) || ownWaits s g die

/-- Replace a gang. -/
def setGang (s : State) (g : Gang) : State :=
  { s with cfe := { s.cfe with gangs := s.cfe.gangs.map fun x => if x.id = g.id then g else x } }

/-- Chunks that a record still holds. -/
def chunksLeft (g : Gang) (r : RangeRecord) : Nat := chunksIn (r.fin.toNat - r.next.toNat) g.chunk.toNat

/-- Replace the record of a die. -/
def setRange (g : Gang) (r : RangeRecord) : Gang := { g with ranges := g.ranges.map fun x => if x.die = r.die then r else x }

/-- The die's agent takes its next chunk for an idle core (R446). [log 66: DESIGN CHOICE] -/
def takeRangeChunk (s : State) (g : Gang) (r : RangeRecord) : State :=
  match idleCores s g r.die.toNat with
  | [] => s
  | c :: cs =>
    let d := draw s (cs.length + 1)
    let core := (c :: cs).getD d.1 c
    let n := min g.chunk.toNat (r.fin.toNat - r.next.toNat)
    let s := setGang d.2 (setRange g { r with next := r.next + word n })
    initialMessage s g.part g.hdr0 ([r.next, word n] ++ g.payload.drop 2) core

/-- The record of a steal (R389): the victim's range record and the winning die. -/
def stealRecord (g : Gang) (v r : RangeRecord) : PeatRecord :=
  { unit := .cfe, part := g.part, a := at_ 32 v.die.toNat ||| zextField g.id, b := zextField r.die }

/-- The dies with the most remaining chunks; in replay those that the stream names, when it names any
(R390, R447). -/
def victims (s : State) (g : Gang) (r : RangeRecord) : List RangeRecord :=
  let most := g.ranges.foldl (fun m x => max m (chunksLeft g x)) 0
  let all := g.ranges.filter fun x => decide (chunksLeft g x = most)
  let named := all.filter fun v => isForcedIn s g.part .cfe && s.cfe.replay.contains (stealRecord g v r)
  if named.isEmpty then all else named

/-- The die's agent, with nothing left, steals half of the chunks of the die that has the most (R447). -/
def stealChunks (s : State) (g : Gang) (r : RangeRecord) : State :=
  let most := g.ranges.foldl (fun m x => max m (chunksLeft g x)) 0
  match victims s g r with
  | [] => s
  | v :: vs =>
    if most = 0 then s
    else
      let d := draw s (vs.length + 1)
      let v := (v :: vs).getD d.1 v
      let rec_ := stealRecord g v r
      if replayHolds d.2 rec_ then s
      else
        let cut := v.next + word ((most - (most + 1) / 2) * g.chunk.toNat)
        logChoice (setGang d.2 (setRange (setRange g { v with fin := cut }) { r with next := cut, fin := v.fin })) rec_

/-- RANGE_CHUNK_TAKE (R446, R447). -/
def rangeTakes (s : State) (die : BitVec 2) : State :=
  match s.cfe.gangs.filter fun g => g.ranges.any fun r => decide (r.die = die) with
  | [] => s
  | g :: gs =>
    let d := draw s (gs.length + 1)
    let g := (g :: gs).getD d.1 g
    match g.ranges.find? fun r => decide (r.die = die) with
    | none => s
    | some r => if (idleCores d.2 g die.toNat).isEmpty then s else if r.next ≠ r.fin then takeRangeChunk d.2 g r else stealChunks d.2 g r

/-- RANGE_CHUNK_TAKE. -/
def execRangeChunkTake (die : BitVec 2) (s : State) : Host.Outcome State Fault Refusal := .next (rangeTakes s die)

/-! ## The replay hold limit (R391) -/

/-- A choice of a unit in a partition that replay holds. -/
def isHolding (s : State) (part : BitVec 6) (u : LogUnit) (r : PeatRecord) : Bool := decide (r.unit = u) && decide (r.part = part) && replayHolds s r

/-- A home slice holds what it keeps: an atomic, a merge, a publication, or a write of an engine or of the host. -/
def keptHolds (s : State) (part : BitVec 6) (u : LogUnit) (k : Kept) : Bool :=
  let atomic := fun (r : AtomRequest) => replayAtomic s r && (isHolding s part u (publicationRecord r) || isHolding s part u (sliceRecord r.part (BitVec.ofNat 37 (r.pa.toNat / 128)) r.core.toNat 3))
  match k with
  | .atomic r _ => atomic r
  | .group g => g.any atomic
  | .writeBack ln w => isStrongMerge w && isHolding s part u (mergeRecord ln w)
  | .publication ln _ => isHolding s part u (sliceRecord (partOf s) ln.line s.cpu.coreId.toNat 2)
  | .engine _ _ _ _ _ => s.cfe.replay.any fun r => decide (r.unit = u) && decide (r.part = part)
  | .hostWrite _ _ _ _ => s.cfe.replay.any fun r => decide (r.unit = u) && decide (r.part = part)
  | _ => false

/-- A unit holds a choice for its turn in the stream of a partition (R390): a core an entry of a level, a slice an
access, the switch a request, the CFE a steal. [log 43: DESIGN CHOICE] -/
def unitHolds (s : State) (part : BitVec 6) (u : LogUnit) : Bool :=
  match u with
  | .core => decide (part = partOf s) && (List.range 24).any fun p => !(s.cpu.queues.get p).isEmpty && (queueHead s p).isNone
  | .slice _ => s.own.holding.any (isHolding s part u) || s.mem.kept.any (keptHolds s part u)
  | .switch => s.fab.outputs.any fun o => o.2.any fun q => decide (q.packet.part = part) && awaitsGroup s q
  | .cfe => s.cfe.gangs.any fun g => g.ranges.any fun r => decide (r.next = r.fin) && (victims s g r).any fun v => isHolding s part u (stealRecord g v r)

/-- REPLAY_HOLD_LIMIT (R391): a unit that follows the stream of a partition has held a choice longer than REPLIM; it
writes a divergence record and stops forcing. How long it held is free. [log 43: DESIGN CHOICE] -/
def holdLimit (s : State) (part : BitVec 6) (u : LogUnit) : State :=
  if isForcedIn s part u && unitHolds s part u then diverge s part u else s

/-- REPLAY_HOLD_LIMIT. -/
def execReplayHoldLimit (u : LogStream) (s : State) : Host.Outcome State Fault Refusal := .next (holdLimit s u.part u.unit)

end Sys2Proof.Machine
end

