-- ==== Sys2Proof/Machine/BringUp.lean ====
section
/-! DEFINITION. Bring-up and power: the start of the device, its failures, minimal mode and throttling
(R449 to R451). -/

namespace Sys2Proof.Machine

/-- A start fails with a reason (R449, R450): one more in FAILS and a reset; the third enters minimal
mode. [log 60: DESIGN CHOICE] -/
def startFails (s : State) (reason : Nat) : State :=
  let n := min 3 (s.cfe.fails + 1)
  let s := resetDevice { s with cfe := { s.cfe with fails := n, bootReason := BitVec.ofNat 8 reason } }
  { s with cfe := { s.cfe with bootState := if n = 3 then 2 else 0 } }

/-- The clusters of a map. -/
def clustersOf (m : BitVec 160) : List Nat := (List.range 160).filter fun k => bit m k

/-- The time that the firmware synchronises to (R32, R412): the grandmaster's, which without a discipline source counts
from its own reset. [log 52: DESIGN CHOICE] -/
def bootTime (s : State) : Word :=
  if isGrandmaster s && !Config.disciplined then word s.cfe.age else Config.grandmaster s.own.draws

/-- The start succeeds (R449): the clusters that fail the self-test are fenced, TIME is synchronised, and
STATE is running. [log 61: DESIGN CHOICE] -/
def startRuns (s : State) : State :=
  let s := (clustersOf (Config.selfTest s.own.draws)).foldl fenceCluster s
  let s := synchronise s (bootTime s)
  { s with
    cfe := { s.cfe with bootState := 1, fails := 0 }
    own := { s.own with draws := s.own.draws + 1 } }

/-- POWER_ON (R449): what the boot ROM and the training find is free. [log 61: DESIGN CHOICE] -/
def powerOn (s : State) : State :=
  if s.cfe.bootState ≠ 0 then s
  else
    let d := draw s 1
    let cause := Config.bootCause s.own.draws
    if cause = 0 then startRuns d.2 else startFails d.2 (pick cause.toNat 7 + 1)

/-- POWER_ON. -/
def execPowerOn (s : State) : Host.Outcome State Fault Refusal := .next (powerOn s)

/-- BOOT_READY_TIMEOUT (R449): no ready report within 2 s. -/
def execBootReadyTimeout (s : State) : Host.Outcome State Fault Refusal := .next (if s.cfe.bootState = 0 then startFails s 6 else s)

/-- THERMAL_THROTTLE (R451): the clock of a die falls by a step of 5 %, or recovers by one. [log 62: DESIGN CHOICE] -/
def throttleDie (s : State) (die : BitVec 2) (hot : Bool) : State :=
  let n := s.cfe.throttle.get die.toNat
  { s with cfe := { s.cfe with throttle := s.cfe.throttle.set die.toNat (if hot then min 19 (n + 1) else n - 1) } }

/-- THERMAL_THROTTLE. -/
def execThermalThrottle (die : BitVec 2) (hot : Bool) (s : State) : Host.Outcome State Fault Refusal := .next (throttleDie s die hot)

end Sys2Proof.Machine
end

