-- ==== Sys2Proof/Machine/Scalar.lean ====
section
/-! DEFINITION. The scalar integer, control, memory, constant-window, extension-register and system
instructions (R74 to R100). -/

namespace Sys2Proof.Machine

/-- MULH (R74): bits [127:64] of the signed product. -/
def mulHigh (a b : Word) : Word := (a.signExtend 128 * b.signExtend 128).extractLsb' 64 64
/-- MULHU (R74): bits [127:64] of the unsigned product. -/
def mulHighU (a b : Word) : Word := (a.zeroExtend 128 * b.zeroExtend 128).extractLsb' 64 64

/-- The largest signed value. -/
def maxSigned : Word := 0x7FFFFFFFFFFFFFFF
/-- The smallest signed value. -/
def minSigned : Word := 0x8000000000000000

/-- DIV (R75): truncating, saturating, never trapping. -/
def divS (a b : Word) : Word :=
  if b = 0 then (if a = 0 then 0 else if a.msb then minSigned else maxSigned)
  else if a = minSigned && decide (b = -1) then maxSigned
  else BitVec.ofInt 64 (a.toInt.tdiv b.toInt)
/-- DIVU (R75). -/
def divU (a b : Word) : Word := if b = 0 then -1 else a / b
/-- REM (R75): the sign follows the dividend. -/
def remS (a b : Word) : Word := if b = 0 then a else BitVec.ofInt 64 (a.toInt.tmod b.toInt)
/-- REMU (R75). -/
def remU (a b : Word) : Word := if b = 0 then a else a % b

/-- The shift amount: the low six bits (R76). -/
def amount (b : Word) : Nat := field b 0 6
/-- SHL (R76). -/
def shiftL (a b : Word) : Word := a <<< amount b
/-- SHR (R76). -/
def shiftR (a b : Word) : Word := a >>> amount b
/-- SRA (R76). -/
def shiftA (a b : Word) : Word := a.sshiftRight (amount b)
/-- ROT (R76): a right rotation. -/
def rotateR (a b : Word) : Word := (a >>> amount b) ||| (a <<< (64 - amount b))

/-- MIN (R74). -/
def minS (a b : Word) : Word := if b.slt a then b else a
/-- MAX (R74). -/
def maxS (a b : Word) : Word := if a.slt b then b else a
/-- MINU (R74). -/
def minU (a b : Word) : Word := if b.ult a then b else a
/-- MAXU (R74). -/
def maxU (a b : Word) : Word := if a.ult b then b else a
/-- SLT (R74). -/
def lessS (a b : Word) : Word := if a.slt b then 1 else 0
/-- SLTU (R74). -/
def lessU (a b : Word) : Word := if a.ult b then 1 else 0

/-- CLZ (R77). -/
def leadingZeros (a : Word) : Word := if a = 0 then 64 else word (63 - Nat.log2 a.toNat)
/-- CTZ (R77). -/
def trailingZeros (a : Word) : Word := word (lowestBit a.toNat 64 0)
/-- POPC (R77). -/
def setBits (a : Word) : Word := word (popCount a.toNat 64)

/-- The mask of the descriptor's width (R78). -/
def fieldMask (desc : Word) : Word := word (2 ^ (field desc 8 6 + 1) - 1)
/-- BEXT (R78). -/
def extractField (a desc : Word) : Word :=
  let mask := fieldMask desc
  let f := (a >>> field desc 0 6) &&& mask
  if bit desc 16 && decide (field desc 8 6 < 63) && bit f (field desc 8 6) then f ||| ~~~ mask else f
/-- BINS (R78). -/
def insertField (old a desc : Word) : Word :=
  let mask := fieldMask desc
  let m := mask <<< field desc 0 6
  (old &&& ~~~ m) ||| ((a &&& mask) <<< field desc 0 6)

/-- DBNZ (R83): the count wraps, and the branch is taken while it is nonzero. -/
def decrementBranch {n : Nat} (a : Reg) (off : BitVec n) (s : State) : Res :=
  let v := readX s a - 1
  let t := writeX s a v
  if v ≠ 0 then .jump t (readPc s + sextField off * 2) else .ok t

/-- JAL (R84). `jal x0, .` ends a queue program (R440). -/
def jumpLink {n : Nat} (i : Instr) (d : Reg) (off : BitVec n) (s : State) : Res :=
  match s.own.turn with
  | .cfe p =>
    if d = 0 && decide (off = 0) then .done (queueEnd s p)
    else .jump (writeX s d (npc s i)) (readPc s + sextField off * 2)
  | _ => .jump (writeX s d (npc s i)) (readPc s + sextField off * 2)

/-- JALR (R84). -/
def jumpRegister (i : Instr) (d : Reg) (target : State → Word) (s : State) : Res :=
  let t := target s
  if bit t 0 then .trap s causeMisalign t else .jump (writeX s d (npc s i)) t

/-- CSRW (R95). -/
def controlWrite (i : Instr) (a : Reg) (n : BitVec 12) (s : State) : Res :=
  let v := readX s a
  if csrRefused s n.toNat v then .trap s causeIllegal (insnWord i) else .ok (csrWrite s n.toNat v)

/-- BRK (R97): with BRKEN it enters debug mode (R373), else it traps. [log 23: DEDUCED] -/
def breakpoint (val : Word) (s : State) : Res :=
  if debugOn s s.dbg.brken then .done (haltCore s 3) else .trap s causeBrk val

/-- ADD (R74): X(rd) := X(ra) + X(rb). -/
def execAdd (d a b : Reg) (s : State) : Host.Outcome State Fault Refusal :=
  runInstr (.add d a b) (regReg d a b (· + ·)) s

/-- SUB (R74): X(rd) := X(ra) − X(rb). -/
def execSub (d a b : Reg) (s : State) : Host.Outcome State Fault Refusal :=
  runInstr (.sub d a b) (regReg d a b (· - ·)) s

/-- MUL (R74): the low 64 bits of the product. -/
def execMul (d a b : Reg) (s : State) : Host.Outcome State Fault Refusal :=
  runInstr (.mul d a b) (regReg d a b (· * ·)) s

/-- MULH (R74): the high half of the signed product. -/
def execMulh (d a b : Reg) (s : State) : Host.Outcome State Fault Refusal :=
  runInstr (.mulh d a b) (regReg d a b mulHigh) s

/-- MULHU (R74): the high half of the unsigned product. -/
def execMulhu (d a b : Reg) (s : State) : Host.Outcome State Fault Refusal :=
  runInstr (.mulhu d a b) (regReg d a b mulHighU) s

/-- DIV (R75). -/
def execDiv (d a b : Reg) (s : State) : Host.Outcome State Fault Refusal :=
  runInstr (.div d a b) (regReg d a b divS) s

/-- DIVU (R75). -/
def execDivu (d a b : Reg) (s : State) : Host.Outcome State Fault Refusal :=
  runInstr (.divu d a b) (regReg d a b divU) s

/-- REM (R75). -/
def execRem (d a b : Reg) (s : State) : Host.Outcome State Fault Refusal :=
  runInstr (.rem d a b) (regReg d a b remS) s

/-- REMU (R75). -/
def execRemu (d a b : Reg) (s : State) : Host.Outcome State Fault Refusal :=
  runInstr (.remu d a b) (regReg d a b remU) s

/-- AND (R74). -/
def execAnd (d a b : Reg) (s : State) : Host.Outcome State Fault Refusal :=
  runInstr (.and d a b) (regReg d a b (· &&& ·)) s

/-- OR (R74). -/
def execOr (d a b : Reg) (s : State) : Host.Outcome State Fault Refusal :=
  runInstr (.or d a b) (regReg d a b (· ||| ·)) s

/-- XOR (R74). -/
def execXor (d a b : Reg) (s : State) : Host.Outcome State Fault Refusal :=
  runInstr (.xor d a b) (regReg d a b (· ^^^ ·)) s

/-- ANDN (R74). -/
def execAndn (d a b : Reg) (s : State) : Host.Outcome State Fault Refusal :=
  runInstr (.andn d a b) (regReg d a b (fun x y => x &&& ~~~ y)) s

/-- SHL (R76). -/
def execShl (d a b : Reg) (s : State) : Host.Outcome State Fault Refusal :=
  runInstr (.shl d a b) (regReg d a b shiftL) s

/-- SHR (R76). -/
def execShr (d a b : Reg) (s : State) : Host.Outcome State Fault Refusal :=
  runInstr (.shr d a b) (regReg d a b shiftR) s

/-- SRA (R76). -/
def execSra (d a b : Reg) (s : State) : Host.Outcome State Fault Refusal :=
  runInstr (.sra d a b) (regReg d a b shiftA) s

/-- ROT (R76). -/
def execRot (d a b : Reg) (s : State) : Host.Outcome State Fault Refusal :=
  runInstr (.rot d a b) (regReg d a b rotateR) s

/-- MIN (R74). -/
def execMin (d a b : Reg) (s : State) : Host.Outcome State Fault Refusal :=
  runInstr (.min d a b) (regReg d a b minS) s

/-- MAX (R74). -/
def execMax (d a b : Reg) (s : State) : Host.Outcome State Fault Refusal :=
  runInstr (.max d a b) (regReg d a b maxS) s

/-- MINU (R74). -/
def execMinu (d a b : Reg) (s : State) : Host.Outcome State Fault Refusal :=
  runInstr (.minu d a b) (regReg d a b minU) s

/-- MAXU (R74). -/
def execMaxu (d a b : Reg) (s : State) : Host.Outcome State Fault Refusal :=
  runInstr (.maxu d a b) (regReg d a b maxU) s

/-- SLT (R74). -/
def execSlt (d a b : Reg) (s : State) : Host.Outcome State Fault Refusal :=
  runInstr (.slt d a b) (regReg d a b lessS) s

/-- SLTU (R74). -/
def execSltu (d a b : Reg) (s : State) : Host.Outcome State Fault Refusal :=
  runInstr (.sltu d a b) (regReg d a b lessU) s

/-- CLZ (R77). -/
def execClz (d a : Reg) (s : State) : Host.Outcome State Fault Refusal :=
  runInstr (.clz d a) (fun s => .ok (writeX s d (leadingZeros (readX s a)))) s

/-- CTZ (R77). -/
def execCtz (d a : Reg) (s : State) : Host.Outcome State Fault Refusal :=
  runInstr (.ctz d a) (fun s => .ok (writeX s d (trailingZeros (readX s a)))) s

/-- POPC (R77). -/
def execPopc (d a : Reg) (s : State) : Host.Outcome State Fault Refusal :=
  runInstr (.popc d a) (fun s => .ok (writeX s d (setBits (readX s a)))) s

/-- SEL (R79): rd is the condition. -/
def execSel (d a b : Reg) (s : State) : Host.Outcome State Fault Refusal :=
  runInstr (.sel d a b) (fun s => .ok (writeX s d (if readX s d ≠ 0 then readX s a else readX s b))) s

/-- BEXT (R78). -/
def execBext (d a b : Reg) (s : State) : Host.Outcome State Fault Refusal :=
  runInstr (.bext d a b) (regReg d a b extractField) s

/-- BINS (R78): rd is the destination to merge into. -/
def execBins (d a b : Reg) (s : State) : Host.Outcome State Fault Refusal :=
  runInstr (.bins d a b) (fun s => .ok (writeX s d (insertField (readX s d) (readX s a) (readX s b)))) s

/-- LEA (R74): X(rd) := X(ra) + (X(rb) << s). -/
def execLea (d a b : Reg) (n : BitVec 2) (s : State) : Host.Outcome State Fault Refusal :=
  runInstr (.lea d a b n) (regReg d a b fun x y => x + y <<< n.toNat) s

/-- ADD with an immediate (R80). -/
def execAddImm (d a : Reg) (i : BitVec 12) (s : State) : Host.Outcome State Fault Refusal :=
  runInstr (.addImm d a i) (regImm d a (sextField i) (· + ·)) s

/-- SLT with an immediate (R80). -/
def execSltImm (d a : Reg) (i : BitVec 12) (s : State) : Host.Outcome State Fault Refusal :=
  runInstr (.sltImm d a i) (regImm d a (sextField i) lessS) s

/-- SLTU with an immediate (R80). -/
def execSltuImm (d a : Reg) (i : BitVec 12) (s : State) : Host.Outcome State Fault Refusal :=
  runInstr (.sltuImm d a i) (regImm d a (sextField i) lessU) s

/-- AND with an immediate (R80). -/
def execAndImm (d a : Reg) (i : BitVec 12) (s : State) : Host.Outcome State Fault Refusal :=
  runInstr (.andImm d a i) (regImm d a (sextField i) (· &&& ·)) s

/-- OR with an immediate (R80). -/
def execOrImm (d a : Reg) (i : BitVec 12) (s : State) : Host.Outcome State Fault Refusal :=
  runInstr (.orImm d a i) (regImm d a (sextField i) (· ||| ·)) s

/-- XOR with an immediate (R80). -/
def execXorImm (d a : Reg) (i : BitVec 12) (s : State) : Host.Outcome State Fault Refusal :=
  runInstr (.xorImm d a i) (regImm d a (sextField i) (· ^^^ ·)) s

/-- SHLI (R76, R80). -/
def execShli (d a : Reg) (n : BitVec 6) (s : State) : Host.Outcome State Fault Refusal :=
  runInstr (.shli d a n) (regImm d a (zextField n) shiftL) s

/-- SHRI (R76, R80). -/
def execShri (d a : Reg) (n : BitVec 6) (s : State) : Host.Outcome State Fault Refusal :=
  runInstr (.shri d a n) (regImm d a (zextField n) shiftR) s

/-- SRAI (R76, R80). -/
def execSrai (d a : Reg) (n : BitVec 6) (s : State) : Host.Outcome State Fault Refusal :=
  runInstr (.srai d a n) (regImm d a (zextField n) shiftA) s

/-- ROTI (R76, R80). -/
def execRoti (d a : Reg) (n : BitVec 6) (s : State) : Host.Outcome State Fault Refusal :=
  runInstr (.roti d a n) (regImm d a (zextField n) rotateR) s

/-- LIH (R81): X(rd) := sext64(imm20 :: 0x000). -/
def execLih (d : Reg) (i : BitVec 20) (s : State) : Host.Outcome State Fault Refusal :=
  runInstr (.lih d i) (fun s => .ok (writeX s d (upper i))) s

/-- ADDPC (R81): X(rd) := PC + sext64(imm20 :: 0x000). -/
def execAddpc (d : Reg) (i : BitVec 20) (s : State) : Host.Outcome State Fault Refusal :=
  runInstr (.addpc d i) (fun s => .ok (writeX s d (readPc s + upper i))) s

/-- BEQ (R47, R82). -/
def execBeq (a b : Reg) (off : BitVec 12) (s : State) : Host.Outcome State Fault Refusal :=
  runInstr (.beq a b off) (branch (fun s => decide (readX s a = readX s b)) off) s

/-- BNE (R47, R82). -/
def execBne (a b : Reg) (off : BitVec 12) (s : State) : Host.Outcome State Fault Refusal :=
  runInstr (.bne a b off) (branch (fun s => decide (readX s a ≠ readX s b)) off) s

/-- BLT (R47, R82). -/
def execBlt (a b : Reg) (off : BitVec 12) (s : State) : Host.Outcome State Fault Refusal :=
  runInstr (.blt a b off) (branch (fun s => (readX s a).slt (readX s b)) off) s

/-- BGE (R47, R82). -/
def execBge (a b : Reg) (off : BitVec 12) (s : State) : Host.Outcome State Fault Refusal :=
  runInstr (.bge a b off) (branch (fun s => !(readX s a).slt (readX s b)) off) s

/-- BLTU (R47, R82). -/
def execBltu (a b : Reg) (off : BitVec 12) (s : State) : Host.Outcome State Fault Refusal :=
  runInstr (.bltu a b off) (branch (fun s => (readX s a).ult (readX s b)) off) s

/-- BGEU (R47, R82). -/
def execBgeu (a b : Reg) (off : BitVec 12) (s : State) : Host.Outcome State Fault Refusal :=
  runInstr (.bgeu a b off) (branch (fun s => !(readX s a).ult (readX s b)) off) s

/-- DBNZ (R83). -/
def execDbnz (a : Reg) (off : BitVec 12) (s : State) : Host.Outcome State Fault Refusal :=
  runInstr (.dbnz a off) (decrementBranch a off) s

/-- JAL (R84). -/
def execJal (d : Reg) (i : BitVec 20) (s : State) : Host.Outcome State Fault Refusal :=
  runInstr (.jal d i) (jumpLink (.jal d i) d i) s

/-- JALR (R84): an odd target traps MISALIGN and writes nothing (R33). -/
def execJalr (d a : Reg) (i : BitVec 12) (s : State) : Host.Outcome State Fault Refusal :=
  runInstr (.jalr d a i) (jumpRegister (.jalr d a i) d fun s => address s a i) s

/-- LDB (R86). -/
def execLdb (d a : Reg) (i : BitVec 12) (s : State) : Host.Outcome State Fault Refusal :=
  runInstr (.ldb d a i) (loadInto d (fun s => address s a i) 1 .signed) s

/-- LDH (R86). -/
def execLdh (d a : Reg) (i : BitVec 12) (s : State) : Host.Outcome State Fault Refusal :=
  runInstr (.ldh d a i) (loadInto d (fun s => address s a i) 2 .signed) s

/-- LDW (R86). -/
def execLdw (d a : Reg) (i : BitVec 12) (s : State) : Host.Outcome State Fault Refusal :=
  runInstr (.ldw d a i) (loadInto d (fun s => address s a i) 4 .signed) s

/-- LDD (R86). -/
def execLdd (d a : Reg) (i : BitVec 12) (s : State) : Host.Outcome State Fault Refusal :=
  runInstr (.ldd d a i) (loadInto d (fun s => address s a i) 8 .zero) s

/-- LDBU (R86). -/
def execLdbu (d a : Reg) (i : BitVec 12) (s : State) : Host.Outcome State Fault Refusal :=
  runInstr (.ldbu d a i) (loadInto d (fun s => address s a i) 1 .zero) s

/-- LDHU (R86). -/
def execLdhu (d a : Reg) (i : BitVec 12) (s : State) : Host.Outcome State Fault Refusal :=
  runInstr (.ldhu d a i) (loadInto d (fun s => address s a i) 2 .zero) s

/-- LDWU (R86). -/
def execLdwu (d a : Reg) (i : BitVec 12) (s : State) : Host.Outcome State Fault Refusal :=
  runInstr (.ldwu d a i) (loadInto d (fun s => address s a i) 4 .zero) s

/-- STB (R86). -/
def execStb (r a : Reg) (i : BitVec 12) (s : State) : Host.Outcome State Fault Refusal :=
  runInstr (.stb r a i) (storeFrom (fun s => readX s r) (fun s => address s a i) 1) s

/-- STH (R86). -/
def execSth (r a : Reg) (i : BitVec 12) (s : State) : Host.Outcome State Fault Refusal :=
  runInstr (.sth r a i) (storeFrom (fun s => readX s r) (fun s => address s a i) 2) s

/-- STW (R86). -/
def execStw (r a : Reg) (i : BitVec 12) (s : State) : Host.Outcome State Fault Refusal :=
  runInstr (.stw r a i) (storeFrom (fun s => readX s r) (fun s => address s a i) 4) s

/-- STD (R86). -/
def execStd (r a : Reg) (i : BitVec 12) (s : State) : Host.Outcome State Fault Refusal :=
  runInstr (.std r a i) (storeFrom (fun s => readX s r) (fun s => address s a i) 8) s

/-- LDK (R93): X(rd) := cw. -/
def execLdk (d : Reg) (i : BitVec 8) (s : State) : Host.Outcome State Fault Refusal :=
  runInstr (.ldk d i) (constInto d i) s

/-- ADD with a constant-window entry (R93). -/
def execAddK (d a : Reg) (i : BitVec 8) (s : State) : Host.Outcome State Fault Refusal :=
  runInstr (.addK d a i) (regConst d a i (· + ·)) s

/-- SUB with a constant-window entry (R93). -/
def execSubK (d a : Reg) (i : BitVec 8) (s : State) : Host.Outcome State Fault Refusal :=
  runInstr (.subK d a i) (regConst d a i (· - ·)) s

/-- MUL with a constant-window entry (R93). -/
def execMulK (d a : Reg) (i : BitVec 8) (s : State) : Host.Outcome State Fault Refusal :=
  runInstr (.mulK d a i) (regConst d a i (· * ·)) s

/-- AND with a constant-window entry (R93). -/
def execAndK (d a : Reg) (i : BitVec 8) (s : State) : Host.Outcome State Fault Refusal :=
  runInstr (.andK d a i) (regConst d a i (· &&& ·)) s

/-- OR with a constant-window entry (R93). -/
def execOrK (d a : Reg) (i : BitVec 8) (s : State) : Host.Outcome State Fault Refusal :=
  runInstr (.orK d a i) (regConst d a i (· ||| ·)) s

/-- XOR with a constant-window entry (R93). -/
def execXorK (d a : Reg) (i : BitVec 8) (s : State) : Host.Outcome State Fault Refusal :=
  runInstr (.xorK d a i) (regConst d a i (· ^^^ ·)) s

/-- LDX from the constant window (R93): e(M) := cw. -/
def execLdxK (m : BitVec 2) (i : BitVec 8) (s : State) : Host.Outcome State Fault Refusal :=
  runInstr (.ldxK m i) (fun s => (constantOf s i).run fun s cw => .ok (writeE s m.toNat cw)) s

/-- LDX (R94). -/
def execLdx (m : BitVec 2) (a : Reg) (i : BitVec 12) (s : State) : Host.Outcome State Fault Refusal :=
  runInstr (.ldx m a i) (fun s => (load s (address s a i) 8).run fun s bs => .ok (writeE s m.toNat (wordOf bs))) s

/-- STX (R94). -/
def execStx (m : BitVec 2) (a : Reg) (i : BitVec 12) (s : State) : Host.Outcome State Fault Refusal :=
  runInstr (.stx m a i) (storeFrom (fun s => readE s m.toNat) (fun s => address s a i) 8) s

/-- MTE (R94). -/
def execMte (m : BitVec 2) (a : Reg) (s : State) : Host.Outcome State Fault Refusal :=
  runInstr (.mte m a) (fun s => .ok (writeE s m.toNat (readX s a))) s

/-- MFE (R94). -/
def execMfe (d : Reg) (m : BitVec 2) (s : State) : Host.Outcome State Fault Refusal :=
  runInstr (.mfe d m) (fun s => .ok (writeX s d (readE s m.toNat))) s

/-- CSRR (R95): the checks of R95 come before (csrCheck). -/
def execCsrr (d : Reg) (n : BitVec 12) (s : State) : Host.Outcome State Fault Refusal :=
  runInstr (.csrr d n) (fun s => .ok (writeX s d (csrRead s n.toNat))) s

/-- CSRW (R95): a value that the register refuses traps ILLEGAL. -/
def execCsrw (a : Reg) (n : BitVec 12) (s : State) : Host.Outcome State Fault Refusal :=
  runInstr (.csrw a n) (controlWrite (.csrw a n) a n) s

/-- SVC (R96). -/
def execSvc (c : BitVec 12) (s : State) : Host.Outcome State Fault Refusal :=
  runInstr (.svc c) (fun s => .trap s causeSvc (zextField c)) s

/-- TRET (R98, R350). -/
def execTret  (s : State) : Host.Outcome State Fault Refusal :=
  runInstr .tret (fun s => .done (returnFromTrap s)) s

/-- IFENCE (R99): later fetches see every store before it (R37). -/
def execIfence  (s : State) : Host.Outcome State Fault Refusal :=
  runInstr .ifence (fun s => .ok { s with cpu := { s.cpu with stale := [] } }) s

/-- BRK (R97, R373). -/
def execBrk (c : BitVec 12) (s : State) : Host.Outcome State Fault Refusal :=
  runInstr (.brk c) (breakpoint (zextField c)) s

/-- NOP (R100). -/
def execNop  (s : State) : Host.Outcome State Fault Refusal :=
  runInstr .nop (fun s => .ok s) s

end Sys2Proof.Machine
end

