-- ==== Sys2Proof/Machine/Short.lean ====
section
/-! DEFINITION. The 16-bit instructions: each has the effect of its 32-bit equivalent, with a length
of 2 (R44). -/

namespace Sys2Proof.Machine

/-- The 16-bit add rd, rd, #s6 (R44). -/
def execCAddi (d : Reg) (i : BitVec 6) (s : State) : Host.Outcome State Fault Refusal :=
  runInstr (.cAddi d i) (regImm d d (sextField i) (· + ·)) s

/-- The 16-bit add rd, x0, #s6 (R44). -/
def execCLi (d : Reg) (i : BitVec 6) (s : State) : Host.Outcome State Fault Refusal :=
  runInstr (.cLi d i) (regImm d 0 (sextField i) (· + ·)) s

/-- The 16-bit shli rd, rd, #u6 (R44). -/
def execCShli (d : Reg) (i : BitVec 6) (s : State) : Host.Outcome State Fault Refusal :=
  runInstr (.cShli d i) (regImm d d (zextField i) shiftL) s

/-- The 16-bit shri rd, rd, #u6 (R44). -/
def execCShri (d : Reg) (i : BitVec 6) (s : State) : Host.Outcome State Fault Refusal :=
  runInstr (.cShri d i) (regImm d d (zextField i) shiftR) s

/-- The 16-bit srai rd, rd, #u6 (R44). -/
def execCSrai (d : Reg) (i : BitVec 6) (s : State) : Host.Outcome State Fault Refusal :=
  runInstr (.cSrai d i) (regImm d d (zextField i) shiftA) s

/-- The 16-bit and rd, rd, #s6 (R44). -/
def execCAndi (d : Reg) (i : BitVec 6) (s : State) : Host.Outcome State Fault Refusal :=
  runInstr (.cAndi d i) (regImm d d (sextField i) (· &&& ·)) s

/-- The 16-bit ldd rd, u6×8(x2) (R44). -/
def execCLddSp (d : Reg) (i : BitVec 6) (s : State) : Host.Outcome State Fault Refusal :=
  runInstr (.cLddSp d i) (loadInto d (fun s => readX s 2 + zextField i * 8) 8 .zero) s

/-- The 16-bit std rd, u6×8(x2) (R44). -/
def execCStdSp (d : Reg) (i : BitVec 6) (s : State) : Host.Outcome State Fault Refusal :=
  runInstr (.cStdSp d i) (storeFrom (fun s => readX s d) (fun s => readX s 2 + zextField i * 8) 8) s

/-- The 16-bit add rd, ra, #0 (R44). -/
def execCMv (a d : Reg) (s : State) : Host.Outcome State Fault Refusal :=
  runInstr (.cMv a d) (regImm d a 0 (· + ·)) s

/-- The 16-bit add rd, rd, ra (R44). -/
def execCAdd (a d : Reg) (s : State) : Host.Outcome State Fault Refusal :=
  runInstr (.cAdd a d) (regReg d d a (· + ·)) s

/-- The 16-bit sub rd, rd, ra (R44). -/
def execCSub (a d : Reg) (s : State) : Host.Outcome State Fault Refusal :=
  runInstr (.cSub a d) (regReg d d a (· - ·)) s

/-- The 16-bit and rd, rd, ra (R44). -/
def execCAnd (a d : Reg) (s : State) : Host.Outcome State Fault Refusal :=
  runInstr (.cAnd a d) (regReg d d a (· &&& ·)) s

/-- The 16-bit or rd, rd, ra (R44). -/
def execCOr (a d : Reg) (s : State) : Host.Outcome State Fault Refusal :=
  runInstr (.cOr a d) (regReg d d a (· ||| ·)) s

/-- The 16-bit xor rd, rd, ra (R44). -/
def execCXor (a d : Reg) (s : State) : Host.Outcome State Fault Refusal :=
  runInstr (.cXor a d) (regReg d d a (· ^^^ ·)) s

/-- The 16-bit jalr rd, 0(ra), with the link PC + 2 (R44). -/
def execCJalr (a d : Reg) (s : State) : Host.Outcome State Fault Refusal :=
  runInstr (.cJalr a d) (jumpRegister (.cJalr a d) d fun s => readX s a) s

/-- The 16-bit ldd rd, 0(ra) (R44). -/
def execCLdd (a d : Reg) (s : State) : Host.Outcome State Fault Refusal :=
  runInstr (.cLdd a d) (loadInto d (fun s => readX s a) 8 .zero) s

/-- The 16-bit std rd, 0(ra) (R44). -/
def execCStd (a d : Reg) (s : State) : Host.Outcome State Fault Refusal :=
  runInstr (.cStd a d) (storeFrom (fun s => readX s d) (fun s => readX s a) 8) s

/-- The 16-bit ldw rd, 0(ra) (R44). -/
def execCLdw (a d : Reg) (s : State) : Host.Outcome State Fault Refusal :=
  runInstr (.cLdw a d) (loadInto d (fun s => readX s a) 4 .signed) s

/-- The 16-bit stw rd, 0(ra) (R44). -/
def execCStw (a d : Reg) (s : State) : Host.Outcome State Fault Refusal :=
  runInstr (.cStw a d) (storeFrom (fun s => readX s d) (fun s => readX s a) 4) s

/-- The 16-bit jalr x0, 0(ra) (R44). -/
def execCJr (a : Reg) (s : State) : Host.Outcome State Fault Refusal :=
  runInstr (.cJr a) (jumpRegister (.cJr a) 0 fun s => readX s a) s

/-- The 16-bit tend (R44). -/
def execCTend (s : State) : Host.Outcome State Fault Refusal :=
  runInstr .cTend (tendBody .cTend) s

/-- The 16-bit nop (R44). -/
def execCNop (s : State) : Host.Outcome State Fault Refusal :=
  runInstr .cNop (fun s => .ok s) s

/-- The 16-bit brk #0 (R44). -/
def execCBrk (s : State) : Host.Outcome State Fault Refusal :=
  runInstr .cBrk (breakpoint (insnWord .cBrk)) s

/-- The 16-bit beq ra, x0 (R44). -/
def execCBeqz (a : Reg) (i : BitVec 6) (s : State) : Host.Outcome State Fault Refusal :=
  runInstr (.cBeqz a i) (branch (fun s => decide (readX s a = 0)) i) s

/-- The 16-bit bne ra, x0 (R44). -/
def execCBnez (a : Reg) (i : BitVec 6) (s : State) : Host.Outcome State Fault Refusal :=
  runInstr (.cBnez a i) (branch (fun s => decide (readX s a ≠ 0)) i) s

/-- The 16-bit jal x0 (R44). -/
def execCJ (i : BitVec 11) (s : State) : Host.Outcome State Fault Refusal :=
  runInstr (.cJ i) (jumpLink (.cJ i) 0 i) s

/-- The 16-bit dbnz ra (R44). -/
def execCDbnz (a : Reg) (i : BitVec 6) (s : State) : Host.Outcome State Fault Refusal :=
  runInstr (.cDbnz a i) (decrementBranch a i) s

/-- The 16-bit ldk rd (R44). -/
def execCLdk (d : Reg) (i : BitVec 8) (s : State) : Host.Outcome State Fault Refusal :=
  runInstr (.cLdk d i) (constInto d i) s

end Sys2Proof.Machine
end

