-- ==== Sys2Proof/Machine/Dispatch.lean ====
section
/-! DEFINITION. The dispatcher: one arm for each constructor of the instruction type, each a direct
call of the meaning that the instruction or event has. -/

namespace Sys2Proof.Machine

/-- The meaning of an instruction or event at a state. [log 3: DESIGN CHOICE; 12: DESIGN CHOICE] -/
def exec (i : Instr) (s : State) : Host.Outcome State Fault Refusal :=
  match i with
  | .add d a b => Sys2Proof.Machine.execAdd d a b s
  | .sub d a b => Sys2Proof.Machine.execSub d a b s
  | .mul d a b => Sys2Proof.Machine.execMul d a b s
  | .mulh d a b => Sys2Proof.Machine.execMulh d a b s
  | .mulhu d a b => Sys2Proof.Machine.execMulhu d a b s
  | .div d a b => Sys2Proof.Machine.execDiv d a b s
  | .divu d a b => Sys2Proof.Machine.execDivu d a b s
  | .rem d a b => Sys2Proof.Machine.execRem d a b s
  | .remu d a b => Sys2Proof.Machine.execRemu d a b s
  | .and d a b => Sys2Proof.Machine.execAnd d a b s
  | .or d a b => Sys2Proof.Machine.execOr d a b s
  | .xor d a b => Sys2Proof.Machine.execXor d a b s
  | .andn d a b => Sys2Proof.Machine.execAndn d a b s
  | .shl d a b => Sys2Proof.Machine.execShl d a b s
  | .shr d a b => Sys2Proof.Machine.execShr d a b s
  | .sra d a b => Sys2Proof.Machine.execSra d a b s
  | .rot d a b => Sys2Proof.Machine.execRot d a b s
  | .min d a b => Sys2Proof.Machine.execMin d a b s
  | .max d a b => Sys2Proof.Machine.execMax d a b s
  | .minu d a b => Sys2Proof.Machine.execMinu d a b s
  | .maxu d a b => Sys2Proof.Machine.execMaxu d a b s
  | .slt d a b => Sys2Proof.Machine.execSlt d a b s
  | .sltu d a b => Sys2Proof.Machine.execSltu d a b s
  | .clz d a => Sys2Proof.Machine.execClz d a s
  | .ctz d a => Sys2Proof.Machine.execCtz d a s
  | .popc d a => Sys2Proof.Machine.execPopc d a s
  | .sel d a b => Sys2Proof.Machine.execSel d a b s
  | .bext d a b => Sys2Proof.Machine.execBext d a b s
  | .bins d a b => Sys2Proof.Machine.execBins d a b s
  | .lea d a b r => Sys2Proof.Machine.execLea d a b r s
  | .addImm d a j => Sys2Proof.Machine.execAddImm d a j s
  | .sltImm d a j => Sys2Proof.Machine.execSltImm d a j s
  | .sltuImm d a j => Sys2Proof.Machine.execSltuImm d a j s
  | .andImm d a j => Sys2Proof.Machine.execAndImm d a j s
  | .orImm d a j => Sys2Proof.Machine.execOrImm d a j s
  | .xorImm d a j => Sys2Proof.Machine.execXorImm d a j s
  | .shli d a n => Sys2Proof.Machine.execShli d a n s
  | .shri d a n => Sys2Proof.Machine.execShri d a n s
  | .srai d a n => Sys2Proof.Machine.execSrai d a n s
  | .roti d a n => Sys2Proof.Machine.execRoti d a n s
  | .lih d j => Sys2Proof.Machine.execLih d j s
  | .addpc d j => Sys2Proof.Machine.execAddpc d j s
  | .beq a b off => Sys2Proof.Machine.execBeq a b off s
  | .bne a b off => Sys2Proof.Machine.execBne a b off s
  | .blt a b off => Sys2Proof.Machine.execBlt a b off s
  | .bge a b off => Sys2Proof.Machine.execBge a b off s
  | .bltu a b off => Sys2Proof.Machine.execBltu a b off s
  | .bgeu a b off => Sys2Proof.Machine.execBgeu a b off s
  | .dbnz a off => Sys2Proof.Machine.execDbnz a off s
  | .jal d j => Sys2Proof.Machine.execJal d j s
  | .jalr d a j => Sys2Proof.Machine.execJalr d a j s
  | .ldb d a j => Sys2Proof.Machine.execLdb d a j s
  | .ldh d a j => Sys2Proof.Machine.execLdh d a j s
  | .ldw d a j => Sys2Proof.Machine.execLdw d a j s
  | .ldd d a j => Sys2Proof.Machine.execLdd d a j s
  | .ldbu d a j => Sys2Proof.Machine.execLdbu d a j s
  | .ldhu d a j => Sys2Proof.Machine.execLdhu d a j s
  | .ldwu d a j => Sys2Proof.Machine.execLdwu d a j s
  | .stb r a j => Sys2Proof.Machine.execStb r a j s
  | .sth r a j => Sys2Proof.Machine.execSth r a j s
  | .stw r a j => Sys2Proof.Machine.execStw r a j s
  | .std r a j => Sys2Proof.Machine.execStd r a j s
  | .ldk d j => Sys2Proof.Machine.execLdk d j s
  | .addK d a j => Sys2Proof.Machine.execAddK d a j s
  | .subK d a j => Sys2Proof.Machine.execSubK d a j s
  | .mulK d a j => Sys2Proof.Machine.execMulK d a j s
  | .andK d a j => Sys2Proof.Machine.execAndK d a j s
  | .orK d a j => Sys2Proof.Machine.execOrK d a j s
  | .xorK d a j => Sys2Proof.Machine.execXorK d a j s
  | .ldxK m j => Sys2Proof.Machine.execLdxK m j s
  | .faddK d a p j => Sys2Proof.Machine.execFaddK d a p j s
  | .fmulK d a p j => Sys2Proof.Machine.execFmulK d a p j s
  | .ffmaK d a p j => Sys2Proof.Machine.execFfmaK d a p j s
  | .fsubK d a p j => Sys2Proof.Machine.execFsubK d a p j s
  | .ldx m a j => Sys2Proof.Machine.execLdx m a j s
  | .stx m a j => Sys2Proof.Machine.execStx m a j s
  | .mte m a => Sys2Proof.Machine.execMte m a s
  | .mfe d m => Sys2Proof.Machine.execMfe d m s
  | .fli d j => Sys2Proof.Machine.execFli d j s
  | .faddi d j => Sys2Proof.Machine.execFaddi d j s
  | .fmuli d j => Sys2Proof.Machine.execFmuli d j s
  | .fadd d a b f m => Sys2Proof.Machine.execFadd d a b f m s
  | .fsub d a b f m => Sys2Proof.Machine.execFsub d a b f m s
  | .fmul d a b f m => Sys2Proof.Machine.execFmul d a b f m s
  | .fdiv d a b f m => Sys2Proof.Machine.execFdiv d a b f m s
  | .fsqrt d a f m => Sys2Proof.Machine.execFsqrt d a f m s
  | .fmin d a b f => Sys2Proof.Machine.execFmin d a b f s
  | .fmax d a b f => Sys2Proof.Machine.execFmax d a b f s
  | .fcmp d a b f c => Sys2Proof.Machine.execFcmp d a b f c s
  | .fclass d a f => Sys2Proof.Machine.execFclass d a f s
  | .fsgn d a b f => Sys2Proof.Machine.execFsgn d a b f s
  | .fsgnn d a b f => Sys2Proof.Machine.execFsgnn d a b f s
  | .fsgnx d a b f => Sys2Proof.Machine.execFsgnx d a b f s
  | .fcvt d a t r m => Sys2Proof.Machine.execFcvt d a t r m s
  | .ffma d a b c f m => Sys2Proof.Machine.execFfma d a b c f m s
  | .csrr d n => Sys2Proof.Machine.execCsrr d n s
  | .csrw a n => Sys2Proof.Machine.execCsrw a n s
  | .svc c => Sys2Proof.Machine.execSvc c s
  | .tret => Sys2Proof.Machine.execTret s
  | .ifence => Sys2Proof.Machine.execIfence s
  | .brk c => Sys2Proof.Machine.execBrk c s
  | .spt n => Sys2Proof.Machine.execSpt n s
  | .nop => Sys2Proof.Machine.execNop s
  | .send a b t => Sys2Proof.Machine.execSend a b t s
  | .spawn d a b => Sys2Proof.Machine.execSpawn d a b s
  | .tend => Sys2Proof.Machine.execTend s
  | .claim a => Sys2Proof.Machine.execClaim a s
  | .unclaim => Sys2Proof.Machine.execUnclaim s
  | .dcset a b => Sys2Proof.Machine.execDcset a b s
  | .dcdec a => Sys2Proof.Machine.execDcdec a s
  | .tagarmAny a b => Sys2Proof.Machine.execTagarmAny a b s
  | .tagarmAll a b => Sys2Proof.Machine.execTagarmAll a b s
  | .bari a n => Sys2Proof.Machine.execBari a n s
  | .barv a n => Sys2Proof.Machine.execBarv a n s
  | .bard n => Sys2Proof.Machine.execBard n s
  | .barj n => Sys2Proof.Machine.execBarj n s
  | .barq d n => Sys2Proof.Machine.execBarq d n s
  | .amoadd d a b o r => Sys2Proof.Machine.execAmoadd d a b o r s
  | .amoand d a b o r => Sys2Proof.Machine.execAmoand d a b o r s
  | .amoor d a b o r => Sys2Proof.Machine.execAmoor d a b o r s
  | .amoxor d a b o r => Sys2Proof.Machine.execAmoxor d a b o r s
  | .amomin d a b o r => Sys2Proof.Machine.execAmomin d a b o r s
  | .amomax d a b o r => Sys2Proof.Machine.execAmomax d a b o r s
  | .amominu d a b o r => Sys2Proof.Machine.execAmominu d a b o r s
  | .amomaxu d a b o r => Sys2Proof.Machine.execAmomaxu d a b o r s
  | .amoswp d a b o r => Sys2Proof.Machine.execAmoswp d a b o r s
  | .cas d a b o r => Sys2Proof.Machine.execCas d a b o r s
  | .cas2 d a b o => Sys2Proof.Machine.execCas2 d a b o s
  | .redadd a b o r => Sys2Proof.Machine.execRedadd a b o r s
  | .ldacq d a r => Sys2Proof.Machine.execLdacq d a r s
  | .strel a b r => Sys2Proof.Machine.execStrel a b r s
  | .fence r => Sys2Proof.Machine.execFence r s
  | .fenceAcq r => Sys2Proof.Machine.execFenceAcq r s
  | .fenceRel r => Sys2Proof.Machine.execFenceRel r s
  | .fencex r p q => Sys2Proof.Machine.execFencex r p q s
  | .sflush a b => Sys2Proof.Machine.execSflush a b s
  | .sinv a b => Sys2Proof.Machine.execSinv a b s
  | .spf a b => Sys2Proof.Machine.execSpf a b s
  | .monarm d a b => Sys2Proof.Machine.execMonarm d a b s
  | .mondis a => Sys2Proof.Machine.execMondis a s
  | .vadd d a b k e => Sys2Proof.Machine.execVadd d a b k e s
  | .vsub d a b k e => Sys2Proof.Machine.execVsub d a b k e s
  | .vmul d a b k e => Sys2Proof.Machine.execVmul d a b k e s
  | .vfma d a b k e => Sys2Proof.Machine.execVfma d a b k e s
  | .vdiv d a b k e => Sys2Proof.Machine.execVdiv d a b k e s
  | .vmin d a b k e => Sys2Proof.Machine.execVmin d a b k e s
  | .vmax d a b k e => Sys2Proof.Machine.execVmax d a b k e s
  | .vabs d a k e => Sys2Proof.Machine.execVabs d a k e s
  | .vand d a b k e => Sys2Proof.Machine.execVand d a b k e s
  | .vor d a b k e => Sys2Proof.Machine.execVor d a b k e s
  | .vxor d a b k e => Sys2Proof.Machine.execVxor d a b k e s
  | .vshl d a b k e => Sys2Proof.Machine.execVshl d a b k e s
  | .vshr d a b k e => Sys2Proof.Machine.execVshr d a b k e s
  | .vsra d a b k e => Sys2Proof.Machine.execVsra d a b k e s
  | .vadds d a b k e => Sys2Proof.Machine.execVadds d a b k e s
  | .vsubs d a b k e => Sys2Proof.Machine.execVsubs d a b k e s
  | .vcmpeq d a b k e => Sys2Proof.Machine.execVcmpeq d a b k e s
  | .vcmplt d a b k e => Sys2Proof.Machine.execVcmplt d a b k e s
  | .vcmple d a b k e => Sys2Proof.Machine.execVcmple d a b k e s
  | .vcmpltu d a b k e => Sys2Proof.Machine.execVcmpltu d a b k e s
  | .vsel d a b k e => Sys2Proof.Machine.execVsel d a b k e s
  | .vcvt d a r k e => Sys2Proof.Machine.execVcvt d a r k e s
  | .vperm d a b k e => Sys2Proof.Machine.execVperm d a b k e s
  | .vbcast d a k e => Sys2Proof.Machine.execVbcast d a k e s
  | .vidx d k e => Sys2Proof.Machine.execVidx d k e s
  | .vmovx d a b e => Sys2Proof.Machine.execVmovx d a b e s
  | .vredadd d a k e => Sys2Proof.Machine.execVredadd d a k e s
  | .vredmin d a k e => Sys2Proof.Machine.execVredmin d a k e s
  | .vredmax d a k e => Sys2Proof.Machine.execVredmax d a k e s
  | .vmand d a b => Sys2Proof.Machine.execVmand d a b s
  | .vmor d a b => Sys2Proof.Machine.execVmor d a b s
  | .vmxor d a b => Sys2Proof.Machine.execVmxor d a b s
  | .vmpopc d a => Sys2Proof.Machine.execVmpopc d a s
  | .vgen d g b k e => Sys2Proof.Machine.execVgen d g b k e s
  | .vld d a k e => Sys2Proof.Machine.execVld d a k e s
  | .vst r a k e => Sys2Proof.Machine.execVst r a k e s
  | .vlds d a b k e => Sys2Proof.Machine.execVlds d a b k e s
  | .vsts r a b k e => Sys2Proof.Machine.execVsts r a b k e s
  | .vgath d a b k e => Sys2Proof.Machine.execVgath d a b k e s
  | .vscat r a b k e => Sys2Proof.Machine.execVscat r a b k e s
  | .copy a b q => Sys2Proof.Machine.execCopy a b q s
  | .cshp d a => Sys2Proof.Machine.execCshp d a s
  | .tagtst d a => Sys2Proof.Machine.execTagtst d a s
  | .tagff d a => Sys2Proof.Machine.execTagff d a s
  | .tagclr a => Sys2Proof.Machine.execTagclr a s
  | .mma t q => Sys2Proof.Machine.execMma t q s
  | .mmac t r q => Sys2Proof.Machine.execMmac t r q s
  | .acld t a => Sys2Proof.Machine.execAcld t a s
  | .acst t a => Sys2Proof.Machine.execAcst t a s
  | .acz t => Sys2Proof.Machine.execAcz t s
  | .accvt t a b => Sys2Proof.Machine.execAccvt t a b s
  | .gset a g => Sys2Proof.Machine.execGset a g s
  | .gget a g => Sys2Proof.Machine.execGget a g s
  | .gdraw d a g => Sys2Proof.Machine.execGdraw d a g s
  | .grdef a r => Sys2Proof.Machine.execGrdef a r s
  | .grbc a r => Sys2Proof.Machine.execGrbc a r s
  | .grstep r q => Sys2Proof.Machine.execGrstep r q s
  | .ldhs d a r => Sys2Proof.Machine.execLdhs d a r s
  | .grq d a r => Sys2Proof.Machine.execGrq d a r s
  | .park a => Sys2Proof.Machine.execPark a s
  | .ctxsv a => Sys2Proof.Machine.execCtxsv a s
  | .ctxrs a => Sys2Proof.Machine.execCtxrs a s
  | .tlbinv a b => Sys2Proof.Machine.execTlbinv a b s
  | .pktemit a b => Sys2Proof.Machine.execPktemit a b s
  | .pktfwd a => Sys2Proof.Machine.execPktfwd a s
  | .pktdrop => Sys2Proof.Machine.execPktdrop s
  | .signal a => Sys2Proof.Machine.execSignal a s
  | .parkq a => Sys2Proof.Machine.execParkq a s
  | .launch a b => Sys2Proof.Machine.execLaunch a b s
  | .loopb d n o => Sys2Proof.Machine.execLoopb d n o s
  | .cAddi d j => Sys2Proof.Machine.execCAddi d j s
  | .cLi d j => Sys2Proof.Machine.execCLi d j s
  | .cShli d j => Sys2Proof.Machine.execCShli d j s
  | .cShri d j => Sys2Proof.Machine.execCShri d j s
  | .cSrai d j => Sys2Proof.Machine.execCSrai d j s
  | .cAndi d j => Sys2Proof.Machine.execCAndi d j s
  | .cLddSp d j => Sys2Proof.Machine.execCLddSp d j s
  | .cStdSp d j => Sys2Proof.Machine.execCStdSp d j s
  | .cMv a d => Sys2Proof.Machine.execCMv a d s
  | .cAdd a d => Sys2Proof.Machine.execCAdd a d s
  | .cSub a d => Sys2Proof.Machine.execCSub a d s
  | .cAnd a d => Sys2Proof.Machine.execCAnd a d s
  | .cOr a d => Sys2Proof.Machine.execCOr a d s
  | .cXor a d => Sys2Proof.Machine.execCXor a d s
  | .cJr a => Sys2Proof.Machine.execCJr a s
  | .cJalr a d => Sys2Proof.Machine.execCJalr a d s
  | .cLdd a d => Sys2Proof.Machine.execCLdd a d s
  | .cStd a d => Sys2Proof.Machine.execCStd a d s
  | .cLdw a d => Sys2Proof.Machine.execCLdw a d s
  | .cStw a d => Sys2Proof.Machine.execCStw a d s
  | .cTend => Sys2Proof.Machine.execCTend s
  | .cNop => Sys2Proof.Machine.execCNop s
  | .cBrk => Sys2Proof.Machine.execCBrk s
  | .cBeqz a j => Sys2Proof.Machine.execCBeqz a j s
  | .cBnez a j => Sys2Proof.Machine.execCBnez a j s
  | .cJ j => Sys2Proof.Machine.execCJ j s
  | .cDbnz a j => Sys2Proof.Machine.execCDbnz a j s
  | .cLdk d j => Sys2Proof.Machine.execCLdk d j s
  | .stashcfgWrite w => Sys2Proof.Machine.execStashcfgWrite w s
  | .queueWriteResume q => Sys2Proof.Machine.execQueueWriteResume q s
  | .dispatch => Sys2Proof.Machine.execDispatch s
  | .msg src => Sys2Proof.Machine.execMsg src s
  | .inboxWriteWaiting => Sys2Proof.Machine.execInboxWriteWaiting s
  | .rdec d => Sys2Proof.Machine.execRdec d s
  | .barrierFlip n => Sys2Proof.Machine.execBarrierFlip n s
  | .copyStart => Sys2Proof.Machine.execCopyStart s
  | .copyComplete ch => Sys2Proof.Machine.execCopyComplete ch s
  | .matrixCommandStart => Sys2Proof.Machine.execMatrixCommandStart s
  | .matrixChunk => Sys2Proof.Machine.execMatrixChunk s
  | .matrixComplete => Sys2Proof.Machine.execMatrixComplete s
  | .matrixFetchFault => Sys2Proof.Machine.execMatrixFetchFault s
  | .mfetch => Sys2Proof.Machine.execMfetch s
  | .leveeTake => Sys2Proof.Machine.execLeveeTake s
  | .slab p => Sys2Proof.Machine.execSlab p s
  | .ldhsStallLimit => Sys2Proof.Machine.execLdhsStallLimit s
  | .storeBufferDrain => Sys2Proof.Machine.execStoreBufferDrain s
  | .fill line req => Sys2Proof.Machine.execFill line req s
  | .data line r => Sys2Proof.Machine.execData line r s
  | .notice line req => Sys2Proof.Machine.execNotice line req s
  | .grant line g => Sys2Proof.Machine.execGrant line g s
  | .wb line w => Sys2Proof.Machine.execWb line w s
  | .inv req => Sys2Proof.Machine.execInv req s
  | .ack line src => Sys2Proof.Machine.execAck line src s
  | .atom req => Sys2Proof.Machine.execAtom req s
  | .catom reqs => Sys2Proof.Machine.execCatom reqs s
  | .atomr r => Sys2Proof.Machine.execAtomr r s
  | .mdec d status => Sys2Proof.Machine.execMdec d status s
  | .packetForward m => Sys2Proof.Machine.execPacketForward m s
  | .ctrl c => Sys2Proof.Machine.execCtrl c s
  | .controlFlit link f => Sys2Proof.Machine.execControlFlit link f s
  | .limitPeriod link => Sys2Proof.Machine.execLimitPeriod link s
  | .linkReplay link => Sys2Proof.Machine.execLinkReplay link s
  | .linkDown l => Sys2Proof.Machine.execLinkDown l s
  | .linkUp l => Sys2Proof.Machine.execLinkUp l s
  | .kernelInvoke => Sys2Proof.Machine.execKernelInvoke s
  | .flowTimeout key => Sys2Proof.Machine.execFlowTimeout key s
  | .deadline proc => Sys2Proof.Machine.execDeadline proc s
  | .sliceInstant => Sys2Proof.Machine.execSliceInstant s
  | .sliceDeadline => Sys2Proof.Machine.execSliceDeadline s
  | .contextRestore area => Sys2Proof.Machine.execContextRestore area s
  | .parkRequest r => Sys2Proof.Machine.execParkRequest r s
  | .watchdog => Sys2Proof.Machine.execWatchdog s
  | .haltreq mask => Sys2Proof.Machine.execHaltreq mask s
  | .resumereq mask => Sys2Proof.Machine.execResumereq mask s
  | .debugTrigger => Sys2Proof.Machine.execDebugTrigger s
  | .engstep v => Sys2Proof.Machine.execEngstep v s
  | .acmdReadContext off => Sys2Proof.Machine.execAcmdReadContext off s
  | .acmdWriteContext off => Sys2Proof.Machine.execAcmdWriteContext off s
  | .acmdReadVa va => Sys2Proof.Machine.execAcmdReadVa va s
  | .acmdWriteVa va => Sys2Proof.Machine.execAcmdWriteVa va s
  | .pcSample => Sys2Proof.Machine.execPcSample s
  | .replayHoldLimit u => Sys2Proof.Machine.execReplayHoldLimit u s
  | .sramError t correctable => Sys2Proof.Machine.execSramError t correctable s
  | .patrolScrub line => Sys2Proof.Machine.execPatrolScrub line s
  | .awr p => Sys2Proof.Machine.execAwr p s
  | .aqConfigWrite off v => Sys2Proof.Machine.execAqConfigWrite off v s
  | .registerWrite off v => Sys2Proof.Machine.execRegisterWrite off v s
  | .ard p => Sys2Proof.Machine.execArd p s
  | .mwr p => Sys2Proof.Machine.execMwr p s
  | .mrd p => Sys2Proof.Machine.execMrd p s
  | .cpl p => Sys2Proof.Machine.execCpl p s
  | .doorbell q v => Sys2Proof.Machine.execDoorbell q v s
  | .qcreate => Sys2Proof.Machine.execQcreate s
  | .qdestroy => Sys2Proof.Machine.execQdestroy s
  | .pcreate => Sys2Proof.Machine.execPcreate s
  | .pslice => Sys2Proof.Machine.execPslice s
  | .loadqp => Sys2Proof.Machine.execLoadqp s
  | .loadfc => Sys2Proof.Machine.execLoadfc s
  | .fenceCmd => Sys2Proof.Machine.execFenceCmd s
  | .retire => Sys2Proof.Machine.execRetire s
  | .rasring => Sys2Proof.Machine.execRasring s
  | .peat => Sys2Proof.Machine.execPeat s
  | .watch => Sys2Proof.Machine.execWatch s
  | .manifest => Sys2Proof.Machine.execManifest s
  | .fwload => Sys2Proof.Machine.execFwload s
  | .wring => Sys2Proof.Machine.execWring s
  | .queueProgramInvoke => Sys2Proof.Machine.execQueueProgramInvoke s
  | .parkqTimeout q => Sys2Proof.Machine.execParkqTimeout q s
  | .gangLaunch => Sys2Proof.Machine.execGangLaunch s
  | .gangEnd gang => Sys2Proof.Machine.execGangEnd gang s
  | .rangeChunkTake die => Sys2Proof.Machine.execRangeChunkTake die s
  | .interruptHold q => Sys2Proof.Machine.execInterruptHold q s
  | .powerOn => Sys2Proof.Machine.execPowerOn s
  | .bootReadyTimeout => Sys2Proof.Machine.execBootReadyTimeout s
  | .thermalThrottle die hot => Sys2Proof.Machine.execThermalThrottle die hot s
  | .barrierOperationAtRoot o => Sys2Proof.Machine.execBarrierOperationAtRoot o s
  | .bariReachesCore n count => Sys2Proof.Machine.execBariReachesCore n count s
  | .monitorRemoval => Sys2Proof.Machine.execMonitorRemoval s
  | .hostLinkDown => Sys2Proof.Machine.execHostLinkDown s

end Sys2Proof.Machine
end

