-- ==== Sys2Proof/Machine/Cycle.lean ====
section
/-! DEFINITION. One step of the machine: the clock advances, then one agent acts. Which agent acts is
the head of the agenda, or a free choice among those that can act. A core at an instruction boundary
takes a pending MFETCH trap, dispatches, or runs the instruction at its pc (R34, R143, R348). -/

namespace Sys2Proof.Machine

/-- TIME after some nanoseconds: it never steps backwards (R32). -/
def laterTime (t : Word) (ns : Nat) : Word := word (min (2 ^ 64 - 1) (t.toNat + ns))

/-- Time passes (R28, R32, R157, R356, R384, R426). [log 10: DESIGN CHOICE] -/
def advance (s : State) : State :=
  let ns := word (Config.nanoseconds s.own.tick)
  let cs := Config.cycles s.own.tick
  let running := s.cpu.trap.isNone
  let held := s.cpu.parked.isSome || s.cpu.halted || (s.cpu.trap.any fun t => t.operation.isSome)
  let frames := match s.cpu.frames with
    | f :: fs => (if running then { f with run := f.run + ns } else f) :: fs
    | [] => []
  let wd := if held || s.cpu.frames.isEmpty then s.cpu.wdCount else s.cpu.wdCount + ns.toNat
  let sedge := s.fab.sedge.map fun p => (p.1, p.2.map fun i => { i with cycles := i.cycles + cs })
  let s := { s with
    own := { s.own with tick := s.own.tick + 1 }
    fab := { s.fab with sedge := sedge }
    cfe := { s.cfe with age := s.cfe.age + ns.toNat }
    cpu := { s.cpu with
      time := if s.cpu.synced then laterTime s.cpu.time (Config.nanoseconds s.own.tick) else s.cpu.time, cyc := s.cpu.cyc + word cs, frames := frames, wdCount := wd } }
  let s := if s.cpu.frames.isEmpty then s else countEvent s 0 cs
  if isHeld s then countEvent s 0xD cs else s

/-- A fetch that fails: FETCH, with XFSTAT after a failed walk and the halfword's address (R33, R219). [log 24: DEDUCED] -/
def fetchTrap (s : State) (reason : Nat) (xf : Word) (a : Nat) : State :=
  let s := { s with cpu := { s.cpu with xfstat := if reason = 4 then xf else 0 } }
  takeTrap s causeFetch (word a)

/-- The instruction has not begun (R13). -/
def waits (s : State) : State := { s with own := { s.own with stalled := true } }

/-- The instruction cache holds the line of a halfword marked poisoned (R352). -/
def poisonedCode (s : State) (a : Nat) : Option BadLine := s.cpu.badCode.find? fun b => decide (b.line = a / 128)

/-- A line of the instruction cache is fetched again at its next use: an issue from it has trapped (R352). -/
def unmarkCode (s : State) (a : Nat) : State :=
  { s with cpu := { s.cpu with badCode := s.cpu.badCode.filter fun b => decide (b.line ≠ a / 128) } }

/-- An instruction is issued from a line marked poisoned (R352): FETCH for a fetch fault, POISON for an uncorrectable
error; the line is fetched again at its next use. -/
def poisonTrap (s : State) (b : BadLine) (a : Nat) : State :=
  let s := unmarkCode s a
  match b.fault with
  | some xf => fetchTrap s 4 xf a
  | none => takeTrap s causePoison (word a)

/-- The core fetches ahead, at a free address (R352): a fault there marks the line and leaves a RAS record. -/
def fetchesAhead (s : State) : State :=
  let d := draw { s with own := { s.own with turn := .core } } (2 ^ 63)
  match fetchHalf d.2 (isUser d.2) (2 * d.1) with
  | .ok t _ => t
  | .poison t _ => t
  | .wait t => t
  | .fail t _ xf a => rasRecord (markCode t (a / 128) (some xf)) 3 5 (partOf t) (field t.cpu.coreId 0 18) (word a)

/-- An instruction that a resume with STEP ran halts the core again (R376). -/
def afterStep (o : Host.Outcome State Fault Refusal) : Host.Outcome State Fault Refusal :=
  match o with
  | .next s => .next (if s.cpu.stepping && !s.own.stalled then haltCore s 4 else s)
  | o => o

/-- The state in which the core fetches: outside a trap frame a spilled window has come back (R147). -/
def beforeFetch (s : State) : State := if s.cpu.trap.isSome then s else fillTop s

/-- Fetch, decode and run the instruction at the pc of the running window (R34, R39, R57). -/
def runFetched (s : State) : Host.Outcome State Fault Refusal :=
  let pc := (readPc s).toNat
  match poisonedCode s pc with
  | some b => .next (poisonTrap s b pc)
  | none =>
    match fetchInstr s (isUser s) pc with
    | .wait s => .next (waits s)
    | .fail s reason xf a => .next (fetchTrap (unmarkCode s a) reason xf a)
    | .poison s a => .next (takeTrap (unmarkCode s a) causePoison (word a))
    | .ok s (w, len) =>
      match (if len = 4 then poisonedCode s (pc + 2) else none) with
      | some b => .next (poisonTrap s b (pc + 2))
      | none =>
        match decode w with
        | .ok i => exec i s
        | .error _ => .next (takeTrap s causeIllegal (word w))

/-- Run the instruction at the pc of the running frame. -/
def runAtPc (s : State) : Host.Outcome State Fault Refusal := runFetched (beforeFetch s)

/-- An SFLUSH or SINV awaits the write-back that it caused (R264). -/
def flushWaits (s : State) : Bool := s.cpu.acks.any fun a => decide (a.cls = 8)

/-- A task can be dispatched (R143). -/
def canDispatch (s : State) : Bool := (dispatchLevel s).isSome

/-- The core has an instruction boundary at which it acts (R143, R264, R355, R360, R361, R372). -/
def canRun (s : State) : Bool :=
  !s.cpu.poweredOff && !s.cpu.away && !s.cpu.halted && s.cpu.parked.isNone && s.cpu.saving.isNone && !(deadlinePassed s) && !leveeWait s && !flushWaits s
    && (s.cpu.trap.isSome || !isIdle s || (pendingMfetch s).isSome || canDispatch s)

/-- The core acts at its instruction boundary. -/
def runCore (s : State) : Host.Outcome State Fault Refusal :=
  if !canRun s then .next s
  else if s.cpu.parkWaits && s.cpu.trap.isNone then .next (parkByRequest s)
  else if s.cpu.trap.isNone && (pendingMfetch s).isSome then exec .mfetch s
  else if canDispatch s then exec .dispatch s
  else if isIdle s && s.cpu.trap.isNone then .next s
  else afterStep (runAtPc s)

/-- A Sedge processor runs the instruction at its pc (R415, R421). -/
def runSedge (n : Nat) (s : State) : Host.Outcome State Fault Refusal :=
  match s.fab.sedge.get n with
  | none => .next s
  | some i =>
    match i.cls.code[i.pc.toNat / 4]? with
    | none => .next (kernelTrap s n 2 i.pc)
    | some w =>
      match decode w.toNat with
      | .ok c => exec c s
      | .error _ => .next (kernelTrap s n 2 i.pc)

/-- An execution slot of the command front end runs the instruction at its pc (R441). -/
def runCfe (n : Nat) (s : State) : Host.Outcome State Fault Refusal :=
  match s.cfe.slots.get n with
  | none => .next s
  | some r =>
    match r.prog[r.pc.toNat / 4]? with
    | none => .next (queueFault s n)
    | some w =>
      match decode w.toNat with
      | .ok c => exec c s
      | .error _ => .next (queueFault s n)

/-- After a processor's turn the core is the running one again. -/
def endTurn (o : Host.Outcome State Fault Refusal) : Host.Outcome State Fault Refusal :=
  match o with
  | .next s => .next { s with own := { s.own with turn := .core } }
  | o => o

/-- A request that a home slice kept is tried again (R238, R240, R390, R429). [log 21: DEDUCED] -/
def retryKept (k : Kept) (s : State) : State :=
  match k with
  | .atomic r _ => atomArrives s r
  | .group g => catomArrives s g
  | .grant line r => noticeArrives s line r
  | .hostWrite leaf pa bytes tid => hostGoesOn s leaf pa bytes tid
  | .publication line scope => publicationArrives s line scope
  | .engine leaf big pa bytes unit => recordArrives s leaf big pa bytes unit
  | .fill line q => fillArrives s line q
  | .writeBack line w => wbArrives s line w
  | .data line r => dataArrives s line r
  | .remote _ _ _ _ => sendRemotes s
  | .hostPacket p => hostNext s p
  | .hostAperture off v => apertureNext s off v
  | .hostRead p => hostReads s p

/-- The packets of this core for a target that are still on their way through this device. -/
def packetsFor (s : State) (target : BitVec 18) : Nat :=
  (travelling s).countP fun p => decide (p.sdev.toNat = ownDev s) && decide (p.sport = corePort s.cpu.coreId) && decide (1 ≤ p.kind.toNat) && decide (p.kind.toNat ≤ 2)
    && decide (p.ddev.toNat * 1024 + p.dport.toNat = target.toNat)

/-- The entry of q3 that another core's port has placed, applied or refused (R13): its packet has left this device's
queues. -/
def placedEntry (s : State) : Option (BitVec 18) :=
  s.cpu.q3Out.find? fun t => decide (t ≠ s.cpu.coreId) && decide (packetsFor s t < s.cpu.q3Out.countP fun u => decide (u = t))

/-- The posted atomics of this core that another device's home has performed: their packets have left this device's
queues (R242). -/
def performable (s : State) : List Nat :=
  (s.cpu.inFlight.filter fun a => !a.returning && decide (a.dev.toNat ≠ ownDev s)
    && !((travelling s).any fun p => (p.kind = 6 || p.kind = 7) && decide (p.sdev.toNat = ownDev s) && decide (p.pa = a.pa))).map (·.id)

/-- An event that an agent of the model brings about: the meaning of its row of the opcode table. -/
def makeMove (m : Move) (s : State) : Host.Outcome State Fault Refusal :=
  match m with
  | .drain => execStoreBufferDrain s
  | .queue => execMsg .own s
  | .inbox => execInboxWriteWaiting s
  | .placed => .next (match placedEntry s with
    | some t => entryPlaced s t
    | none => s)
  | .resume => .next (resumeGoesOn s)
  | .kept k => .next (retryKept k s)
  | .performed id => .next (answer s id none)
  | .fetchAhead => .next (fetchesAhead s)
  | .invalidation line => execInv { line := line, part := partOf s } s
  | .acknowledgement line src => execAck line src s
  | .monitorDecrement d status => execMdec d status s
  | .monitorRemoval => execMonitorRemoval s
  | .barrierAtRoot => execBarrierOperationAtRoot .own s
  | .barrierFlip n => execBarrierFlip n s
  | .bari n count => execBariReachesCore n count s
  | .copyStart => execCopyStart s
  | .copyComplete ch => execCopyComplete ch s
  | .matrixStart => execMatrixCommandStart s
  | .matrixChunk => execMatrixChunk s
  | .matrixFault => execMatrixFetchFault s
  | .matrixComplete => execMatrixComplete s
  | .leveeTake => execLeveeTake s
  | .stallLimit => execLdhsStallLimit s
  | .sliceInstant => execSliceInstant s
  | .sliceDeadline => execSliceDeadline s
  | .watchdog => execWatchdog s
  | .sample => execPcSample s
  | .output out => execPacketForward (.depart (BitVec.ofNat 6 out)) s
  | .time => .next (sendTime s)
  | .kernel => execKernelInvoke s
  | .flowTimer key => execFlowTimeout key s
  | .deadline proc => execDeadline proc s
  | .configure => .next (applyConfigs s)
  | .program => execQueueProgramInvoke s
  | .parkqLimit q => execParkqTimeout q s
  | .launch => execGangLaunch s
  | .gangEnd gang => execGangEnd gang s
  | .chunk die => execRangeChunkTake die s
  | .hold q => execInterruptHold q s
  | .stream => .next (writeStream s)
  | .access => .next (accessGoesOn s)
  | .engineStep => .next (stepGoesOn s)

/-- A command of queue 0 goes on (R434, R436). -/
def adminMove (s : State) : Host.Outcome State Fault Refusal :=
  match s.cfe.command.orElse fun _ => (adminQueue s).commands.head? with
  | none => .next s
  | some c =>
    match commandOp c with
    | 0x01 => execQcreate s
    | 0x02 => execQdestroy s
    | 0x03 => execPcreate s
    | 0x04 => execPslice s
    | 0x05 => execLoadqp s
    | 0x06 => execLoadfc s
    | 0x07 => execFenceCmd s
    | 0x08 => execRetire s
    | 0x09 => execRasring s
    | 0x0A => execPeat s
    | 0x0B => execWatch s
    | 0x0C => execManifest s
    | 0x0D => execFwload s
    | 0x0E => execWring s
    | _ => .next (settleAdmin s)

/-- What a packet brings about, as the meaning of its kind's row (R400). -/
def takeArrival (a : Arrival) (s : State) : Host.Outcome State Fault Refusal :=
  match a with
  | .fill line h => execFill line h s
  | .data line r => execData line r s
  | .notice line q => execNotice line q s
  | .grant line g => execGrant line g s
  | .wb line w => execWb line w s
  | .inv line part => execInv { line := line, part := part } s
  | .ack line src => execAck line src s
  | .atom r => execAtom r s
  | .catom g => execCatom g s
  | .atomr r => execAtomr r s
  | .mdec d status => execMdec d status s
  | .slab p => .next (slabPacketArrives s p)
  | .ctrl c => execCtrl c s
  | .watch => .next (triggerArrives s 6)

/-- What the host link and the start of the device bring about (R449, R450). -/
def isHostEvent (i : Instr) : Bool :=
  match i with
  | .awr _ | .ard _ | .mwr _ | .mrd _ | .cpl _ | .doorbell _ _ | .registerWrite _ _ | .aqConfigWrite _ _ | .interruptHold _ | .hostLinkDown
    | .powerOn | .bootReadyTimeout | .fwload => true
  | _ => false

/-- An act that does not happen in minimal mode: one from outside the device that neither the host link nor the start
brings about (R450). -/
def restsMinimal (s : State) (a : Act) : Bool :=
  decide (s.cfe.bootState = 2) && match a with
    | .turn _ => false
    | .move _ => false
    | .command => false
    | .event i => !(isHostEvent i)
    | _ => true

/-- One agent acts: a processor runs, an event happens, or a packet reaches this core's port. [log 2: DESIGN CHOICE; 72: DESIGN CHOICE] -/
def act (a : Act) (s : State) : Host.Outcome State Fault Refusal :=
  let s := { s with own := { s.own with stalled := false, turn := .core } }
  if restsMinimal s a then .next s
  else match a with
  | .turn .core => runCore { s with own := { s.own with holding := none } }
  | .turn (.sedge n) => endTurn (runSedge n { s with own := { s.own with turn := .sedge n } })
  | .turn (.cfe n) => endTurn (runCfe n { s with own := { s.own with turn := .cfe n } })
  | .event i => if i.isEvent then exec i s else .next s
  | .move m => makeMove m s
  | .command => adminMove s
  | .message m spawn part => execMsg (.other m spawn part) s
  | .decrement d => execRdec d s
  | .park r => execParkRequest r s
  | .arrival a => takeArrival a s

/-- An act where a condition holds. -/
def offer (c : Bool) (a : Act) : List Act := if c then [a] else []

/-- What the core's memory brings about. -/
def memoryMoves (s : State) : List Act :=
  offer (!s.mem.buffer.isEmpty) (.move .drain) ++ (s.mem.kept.map fun k => .move (.kept k)) ++ ((performable s).map fun i => .move (.performed i))
    ++ (s.mem.invs.map fun l => .move (.invalidation l))
    ++ ((s.cpu.acks.filter fun a => !(ackWaits s a.line a.src)).map fun a => .move (.acknowledgement a.line a.src))
    ++ ((s.mem.firings.filter fun f => decide (f.core = s.cpu.coreId)).map fun f =>
      .move (.monitorDecrement { line := f.line, word := f.word, n := f.n, part := f.part } f.status))
    ++ offer (!s.mem.removals.isEmpty) (.move .monitorRemoval)

/-- What the core's queue and inbox, its barriers and its timers bring about. -/
def coreMoves (s : State) : List Act :=
  offer (!s.cpu.q3.isEmpty) (.move .queue) ++ offer (placedEntry s).isSome (.move .placed)
    ++ offer (!s.cpu.port.isEmpty || s.cpu.lateRing.isSome) (.move .inbox) ++ offer s.cpu.resuming.isSome (.move .resume)
    ++ offer (canRun s && !(isIdle s)) (.move .fetchAhead)
    ++ offer (!s.net.out.isEmpty) (.move .barrierAtRoot)
    ++ (s.net.flips.map fun f => .move (.barrierFlip f.n)) ++ (s.net.baris.map fun b => .move (.bari b.1 b.2.1))
    ++ offer (decide (s.cpu.slat ≠ 0) && bit s.cpu.slcfg 0) (.move .sliceInstant) ++ offer (switchPending s) (.move .sliceDeadline)
    ++ offer (decide (field s.cpu.partid 48 16 ≠ 0) && !s.cpu.wdPosted) (.move .watchdog) ++ offer (bit s.cpu.pcscfg 5) (.move .sample)
    ++ offer (decide (s.dbg.astat = 1)) (.move .access) ++ offer s.dbg.engStep.isSome (.move .engineStep)

/-- What the engines bring about. -/
def engineMoves (s : State) : List Act :=
  offer (!s.eng.q1.isEmpty) (.move .copyStart)
    ++ (s.eng.channels.filterMap fun c => if c.2.isSome then some (.move (.copyComplete (BitVec.ofNat 4 c.1))) else none)
    ++ offer (!s.eng.q0.isEmpty || !s.eng.waiting.isEmpty) (.move .matrixStart)
    ++ (if s.eng.running.isSome then [.move .matrixChunk, .move .matrixFault] else [])
    ++ offer (s.eng.running.isSome || s.eng.waiting.any fun m => m.finished && m.fault.isNone) (.move .matrixComplete)
    ++ offer (!s.eng.q2.isEmpty) (.move .leveeTake) ++ offer s.cpu.ldhsSince.isSome (.move .stallLimit)

/-- What the switch, its kernels and the command front end bring about. -/
def deviceMoves (s : State) : List Act :=
  (((List.range 38).filter fun o => (List.range 8).any fun v => !(s.fab.outputs.get (o * 8 + v)).isEmpty).map fun o => .move (.output o))
    ++ offer (!s.fab.changing.isEmpty) (.move (.output 31)) ++ offer (isGrandmaster s && s.cpu.synced && !(otherDevices s).isEmpty) (.move .time)
    ++ offer (!s.cfe.peatLog.isEmpty) (.move .stream)
    ++ offer (!s.fab.waiting.isEmpty) (.move .kernel) ++ (s.fab.records.map fun r => .move (.flowTimer r.key))
    ++ (((List.range 16).filter fun n => (s.fab.sedge.get n).isSome).flatMap fun n => [.turn (.sedge n), .move (.deadline (BitVec.ofNat 4 n))])
    ++ offer (!s.cfe.aqPending.isEmpty) (.move .configure)
    ++ offer (s.cfe.command.isSome || !(adminQueue s).commands.isEmpty) .command
    ++ offer ((nextQueue s).isSome || s.cfe.waiters.any (·.ready)) (.move .program)
    ++ (((List.range 32).filter fun n => (s.cfe.slots.get n).isSome).map fun n => .turn (.cfe n))
    ++ (s.cfe.waiters.map fun w => .move (.parkqLimit (BitVec.ofNat 8 w.run.queue)))
    ++ offer (!s.cfe.launches.isEmpty) (.move .launch) ++ (s.cfe.gangs.map fun g => .move (.gangEnd g.id))
    ++ (s.cfe.gangs.flatMap fun g => g.ranges.map fun r => .move (.chunk r.die))
    ++ (s.cfe.queues.filterMap fun q => if (q.2.any fun x => decide (x.unreported ≠ 0)) then some (.move (.hold (BitVec.ofNat 8 q.1))) else none)

/-- The agents that can act by themselves. [log 2: DESIGN CHOICE; 12: DESIGN CHOICE] -/
def enabled (s : State) : List Act := offer (canRun s) (.turn .core) ++ memoryMoves s ++ coreMoves s ++ engineMoves s ++ deviceMoves s

/-- One step of the machine. [log 2: DESIGN CHOICE] -/
def machineStep (s : State) : Host.Outcome State Fault Refusal :=
  let s := advance s
  match s.own.agenda with
  | a :: rest => act a { s with own := { s.own with agenda := rest } }
  | [] =>
    match enabled s with
    | [] => .next s
    | a :: as =>
      let d := draw s (as.length + 1)
      act ((a :: as).getD d.1 a) d.2

/-! ## Placing an instruction -/

/-- Where a placed instruction stands in the core's own local memory. [log 11: DESIGN CHOICE] -/
def placedAt : Nat := 0x1000

/-- A supervisor frame of the highest level with the largest window and both engines declared. [log 11: DESIGN CHOICE] -/
def placedFrame : Frame where
  entry := word placedAt
  pc := word placedAt
  level := 20
  thr := 20
  claimBase := 0
  msgInfo := 0
  taskId := 0
  wcode := 3
  vec := true
  mat := true
  sptOff := 0
  regs := []
  poison := []
  spillSlot := 0xE7400
  spilled := false
  arrival := 0
  dispatched := 0
  run := 0

/-- The machine with an instruction of the core at the pc of a running frame. [log 11: DESIGN CHOICE] -/
def placeCore (s : State) (bs : List Byte) : State :=
  let s := { s with mem := { s.mem with lmem := putBytes s.mem.lmem (ownKey s placedAt) bs } }
  { s with
    cpu := { s.cpu with frames := [placedFrame], trap := none, parked := none, halted := false, switching := false, saving := none, parkWaits := false, away := false, poweredOff := false }
    own := { s.own with agenda := [.turn .core], turn := .core } }

/-- A flow class whose kernel is the given words. [log 11: DESIGN CHOICE] -/
def placedClass (code : List (BitVec 32)) : FlowClass :=
  { part := 0, cls := 1, recs := 1, fidw := 0, tmo := 0, ohand := 0, owner := 0, code := code, timeout := 0, table := [], tablePoison := [], tablen := 0 }

/-- The machine with an instruction of the bounded profile at the pc of a kernel's invocation. [log 11: DESIGN CHOICE] -/
def placeSedge (s : State) (w : BitVec 32) : State :=
  let i : Invocation := { cls := placedClass [w], fid := 0, timeout := false, packet := none, origin := .own, window := [], len := 0, scratch := [], pc := 0, x := [], v := [], k := [], fpctl := 0, vflane := 0, cycles := 0 }
  { s with
    fab := { s.fab with sedge := s.fab.sedge.set 0 (some i) }
    own := { s.own with agenda := [.turn (.sedge 0)], turn := .core } }

/-- The machine with an instruction of the bounded profile at the pc of a queue program's invocation. [log 11: DESIGN CHOICE] -/
def placeCfe (s : State) (w : BitVec 32) : State :=
  let q : Queue := { elog := 4, part := 0, vec := 0, cring := 0, pring := 0, head := 0, tail := 0, stopped := false, commands := [], prog := [w], sets := [], loaded := true, memory := [], busy := true, taken := 0, written := 0, unreported := 0, oldest := 0 }
  let r : QpRun := { queue := 1, command := List.replicate 64 0, prog := [w], sets := [], launched := false, scratch := [], pc := 0, x := [], fpctl := 0 }
  { s with
    cfe := { s.cfe with queues := s.cfe.queues.set 1 (some q), slots := s.cfe.slots.set 0 (some r) }
    own := { s.own with agenda := [.turn (.cfe 0)], turn := .core } }

/-- The state in which the next step runs the instruction with these bits: on the core, or where the
bounded profile's own instructions run. [log 11: DESIGN CHOICE] -/
def placeWord (s : State) (nbits w : Nat) : State :=
  match decodeTableWord nbits w with
  | some (.pktemit _ _) | some (.pktfwd _) | some .pktdrop | some (.loopb _ _ _) => placeSedge s (BitVec.ofNat 32 w)
  | some (.signal _) | some (.parkq _) | some (.launch _ _) => placeCfe s (BitVec.ofNat 32 w)
  | _ => placeCore s (wordBytes w 4)

end Sys2Proof.Machine
end

