-- ==== Sys2Proof/Machine/Step.lean ====
section
/-! DEFINITION. One step of the machine, and the placing of an instruction for the host. -/

namespace Sys2Proof.Machine

/-- One step: time passes and one agent acts. [log 2: DESIGN CHOICE] -/
def step (s : State) : Host.Outcome State Fault Refusal := machineStep s

/-- The state in which the next step fetches and runs the instruction with the given bits. [log 11: DESIGN CHOICE] -/
def State.withFetchWord (s : State) (nbits w : Nat) : State := placeWord s nbits w

end Sys2Proof.Machine
end

