-- ==== Sys2Proof/Safety.lean ====
section
/-! DEFINITION. What a safe step is, the invariant of the machine's memories, and the words in which the
statements about instructions are written. -/

namespace Sys2Proof.Machine

/-- The memories of the machine stand in their canonical form: local memory and the memory of the
device (R23, R207). [log 1: DESIGN CHOICE] -/
def Mem.wf (m : Mem) : Bool := Table.wf m.lmem && Table.wf m.pmem

/-- The invariant that every step keeps. [log 1: DESIGN CHOICE] -/
def State.Inv (s : State) : Prop := s.mem.wf = true

/-- A state is safe for one step when the step answers a next state. -/
def State.Safe (s : State) : Prop := ∃ t, step s = .next t

/-- The state after an instruction of `n` bytes whose own effect left `s`: the pc moves on, and the
instruction retires (R33, R38). -/
def goesOn (s : State) (n : Nat) : State := retire (writePc s (readPc s + word n))

/-- The state after an instruction that goes on at `pc` and whose own effect left `s`. -/
def jumpsTo (s : State) (pc : Word) : State := retire (writePc s pc)

/-- Where the checks of R59 pass, instruction `i` has its own effect, which makes `t` of `s`. -/
def Completes (s : State) (i : Instr) (t : State) : Prop := check s i = .pass → exec i s = .next t

/-- Where the checks pass, `i` writes `v` to a general register, and the pc moves on by `n`. -/
def Writes (s : State) (i : Instr) (d : Reg) (v : Word) (n : Nat) : Prop := Completes s i (goesOn (writeX s d v) n)

/-- Where the checks pass, `i` goes on at PC + 2 × off where `take` holds, else at the next instruction of
`n` bytes; its effect on the registers has left `t`. -/
def Branches (s : State) (i : Instr) (take : Prop) [Decidable take] (t : State) (off : Word) (n : Nat) : Prop :=
  Completes s i (if take then jumpsTo t (readPc s + off * 2) else goesOn t n)

/-- Where the checks pass, `i` loads `n` bytes at `addr` and writes a value made of them to `d`; an access that
raises a cause makes the instruction trap with it. -/
def Loads (s : State) (i : Instr) (addr : Word) (n : Nat) (d : Reg) (value : List Byte → Word) (len : Nat) : Prop :=
  (∀ t bs, load s addr n = .ok t bs → Completes s i (goesOn (writeX t d (value bs)) len))
    ∧ ∀ t c v, load s addr n = .trap t c v → s.own.turn = .core → t.own.turn = .core → Completes s i (takeTrap t c v)

/-- Where the checks pass, `i` stores the low `n` bytes of `v` at `addr`; an access that raises a cause makes the
instruction trap with it. -/
def Stores (s : State) (i : Instr) (addr : Word) (n : Nat) (v : Word) (len : Nat) : Prop :=
  (∀ t, store s addr (toBytes n v.toNat) = .ok t () → Completes s i (goesOn t len))
    ∧ ∀ t c x, store s addr (toBytes n v.toNat) = .trap t c x → s.own.turn = .core → t.own.turn = .core → Completes s i (takeTrap t c x)

/-- Where the checks pass, `i` writes the bits of a floating-point result to `d`, zero-extended, and ORs its
flags into FPCTL. -/
def FloatWrites (s : State) (i : Instr) (d : Reg) (r : Result) : Prop :=
  Completes s i (goesOn (writeX (raiseFlags s r.flags) d (BitVec.ofNat 64 r.bits)) 4)

/-- The magnitude of a code of a format whose exponent is unbounded, as a multiple of 2^b (R104). -/
def Format.multiple (f : Format) (b : Int) (code : Nat) : Nat :=
  let e := code / 2 ^ f.fb
  let m := code % 2 ^ f.fb
  if e = 0 then m * 2 ^ (1 - (f.bias : Int) - f.fb - b).toNat else (2 ^ f.fb + m) * 2 ^ ((e : Int) - f.bias - f.fb - b).toNat

/-- A value as a multiple of 2^b, for a b at or below its exponent. -/
def Num.multiple (b : Int) (v : Num) : Int :=
  match v with
  | .fin neg m e => (if neg then -1 else 1) * (m * 2 ^ (e - b).toNat : Nat)
  | _ => 0

/-- Of the magnitudes `val n`, in the order of their codes n, mode `k` rounds an exact magnitude to that of code `c`
(R114). The exact magnitude is given by its place: `lo t` says that t / 2 does not exceed it, and `hi t` that it does
not exceed t / 2. Of SR, which is not described here, nothing is said. -/
def RoundsTo (k : Mode) (neg : Bool) (val : Nat → Nat) (lo hi : Nat → Prop) (c : Nat) : Prop :=
  let smaller := lo (2 * val c) ∧ ∀ n, lo (2 * val n) → val n ≤ val c
  let larger := hi (2 * val c) ∧ ∀ n, hi (2 * val n) → val c ≤ val n
  match k with
  | .rne => ∀ n, (val c < val n → hi (val c + val n)) ∧ (val n < val c → lo (val c + val n))
      ∧ (val n ≠ val c → lo (val c + val n) → hi (val c + val n) → c % 2 = 0)
  | .rna => ∀ n, (val c < val n → ¬ lo (val c + val n)) ∧ (val n < val c → lo (val c + val n))
  | .rtz => smaller
  | .rdn => if neg then larger else smaller
  | .rup => if neg then smaller else larger
  | .sr _ => True

/-- `r` is one rounding of an exact value, whose sign is `neg` and whose magnitude in units of 2^b has the place that
`lo` and `hi` give, with the flags of R116 and the overflow of R118. -/
def Format.Delivers (f : Format) (k : Mode) (neg : Bool) (b : Int) (lo hi : Nat → Prop) (r : Result) : Prop :=
  ∃ c, RoundsTo k neg (f.multiple b) lo hi c
    ∧ (c ≤ f.maxCode → r.bits = f.signed neg c ∧ r.flags.toNat < 4
      ∧ (r.flags.getLsbD 0 = true ↔ ¬(lo (2 * f.multiple b c) ∧ hi (2 * f.multiple b c)))
      ∧ (r.flags.getLsbD 1 = true ↔ r.flags.getLsbD 0 = true ∧ ¬ lo (2 * 2 ^ (1 - (f.bias : Int) - b).toNat)))
    ∧ (f.maxCode < c → r.flags = flagOF ||| flagNX
      ∧ r.bits = f.signed neg (if f.special = .ieee ∧ (k = .rne ∨ k = .rna ∨ k = (if neg then .rdn else .rup)) then f.infCode else f.maxCode))

/-- The state in which the core's turn begins: time has passed, and the agenda has given the turn. -/
def coreTurn (s : State) (rest : List Act) : State :=
  { advance s with own := { (advance s).own with agenda := rest, stalled := false, turn := .core, holding := none } }

/-- A frame without what an instruction of its own changes: pc, registers and poison marks. -/
def Frame.outline (f : Frame) : Frame := { f with pc := 0, regs := [], poison := [] }

/-- The trap frame without its pc, registers and poison marks. -/
def TrapFrame.outline (t : TrapFrame) : TrapFrame := { t with pc := 0, regs := [], poison := [] }

/-- The memory after an instruction of the core that reached no line: as before, without the lines of other
devices that had come for the instruction alone. -/
def settledMem (s : State) : Mem := if s.own.turn = .core then (dropUsed s).mem else s.mem

/-- Nothing but the running window, its pc and the counts of retired instructions differs: every byte of
memory, every register bank, every control register, every frame below the running one, the engines,
the barriers, the switch and the host link are as before. -/
def SameOutsideWindow (s t : State) : Prop :=
  t.mem = settledMem s ∧ t.eng = s.eng ∧ t.net = s.net ∧ t.dbg = s.dbg ∧ t.contexts = s.contexts ∧ t.own = s.own
    ∧ { t.cpu with frames := s.cpu.frames, trap := s.cpu.trap, retired := s.cpu.retired, cnt := s.cpu.cnt } = s.cpu
    ∧ t.cpu.frames.tail = s.cpu.frames.tail ∧ t.cpu.frames.map Frame.outline = s.cpu.frames.map Frame.outline
    ∧ t.cpu.trap.map TrapFrame.outline = s.cpu.trap.map TrapFrame.outline
    ∧ { t.fab with sedge := s.fab.sedge } = s.fab ∧ { t.cfe with slots := s.cfe.slots } = s.cfe

/-- The general register that an instruction writes which does nothing else: the integer operations on
registers and immediates, and the reads of the pc, of extension registers, control registers and
barriers. -/
def soleDestination (i : Instr) : Option Reg :=
  match i with
  | .add d _ _ | .sub d _ _ | .mul d _ _ | .mulh d _ _ | .mulhu d _ _ | .div d _ _ | .divu d _ _ | .rem d _ _ | .remu d _ _
    | .and d _ _ | .or d _ _ | .xor d _ _ | .andn d _ _ | .shl d _ _ | .shr d _ _ | .sra d _ _ | .rot d _ _ | .min d _ _
    | .max d _ _ | .minu d _ _ | .maxu d _ _ | .slt d _ _ | .sltu d _ _ | .clz d _ | .ctz d _ | .popc d _ | .sel d _ _
    | .bext d _ _ | .bins d _ _ | .lea d _ _ _ | .addImm d _ _ | .sltImm d _ _ | .sltuImm d _ _ | .andImm d _ _ | .orImm d _ _
    | .xorImm d _ _ | .shli d _ _ | .shri d _ _ | .srai d _ _ | .roti d _ _ | .lih d _ | .addpc d _ | .mfe d _ | .csrr d _
    | .barq d _ | .fli d _ | .fclass d _ _ | .cAddi d _ | .cLi d _ | .cShli d _ | .cShri d _ | .cSrai d _ | .cAndi d _ => some d
  | .cMv _ d | .cAdd _ d | .cSub _ d | .cAnd _ d | .cOr _ d | .cXor _ d => some d
  | _ => none

/-- The checks of SEND and SPAWN pass on an image (R160, R161): its address, its place, and its header, whose bits
`zero` must be zero. -/
def ImageAccepted (s : State) (a zero : Word) : Prop :=
  let h := dword (getLocals s (ownKey s a.toNat) 64) 0
  a.toNat % 64 = 0 ∧ a.toNat ≤ 0xFFFC0 ∧ inStash s (ownKey s a.toNat) 64 = false ∧ localPoison s (ownKey s a.toNat) 64 = false
    ∧ h &&& zero = 0 ∧ hdrLevel h < 24 ∧ (20 ≤ hdrLevel h → isUser s = false)

/-- The state with a further entry in q3. -/
def withOutbound (s : State) (e : Outbound) : State := { s with cpu := { s.cpu with q3 := s.cpu.q3 ++ [e] } }

/-- The L2 slice of a home line has room for it: its set holds the line, or has two free ways, which two pieces of an
access may take (R209). -/
def hasRoom (s : State) (ln : LineId) : Prop :=
  let x := s.mem.l2.get (l2Key (homeDie ln.line) ln.line)
  (∃ w, w < 16 ∧ x.ways.get w = some ln) ∨ ∃ v w, v < w ∧ w < 16 ∧ x.ways.get v = none ∧ x.ways.get w = none

/-- Whatever the core holds of a line stands under the key id of a page (R212). -/
def KeyedAs (s : State) (ln : LineId) (key : BitVec 6) : Prop :=
  (∀ b ∈ s.mem.buffer, b.line = ln → b.key = key) ∧ (∀ l, stashLine s ln = some l → l.key = key) ∧ ∀ p, peerLine s ln = some p → p.key = key

/-- A global piece lies in a line of this device that nothing is going on with: no other core holds a word, the core
itself has nothing unpublished, cached, buffered or in flight, and no byte of the piece is poisoned. -/
def QuietHome (s : State) (p : Piece) : Prop :=
  isHome s (pieceLine p) = true ∧ isLogged p = false ∧ homePoison s p.key p.n = false ∧ (dirOf s (pieceLine p).line).writers = []
    ∧ s.mem.grants = [] ∧ s.mem.stash = [] ∧ s.mem.buffer = [] ∧ s.mem.kept = [] ∧ s.cpu.acks = [] ∧ s.cpu.inFlight = []

/-- The window of the running frame is in the register stack, as it is when an instruction begins (R147). -/
def headResident (s : State) : Prop := ∀ f ∈ s.cpu.frames.head?, f.spilled = false

/-- Where the checks pass, the active lanes of vd take the results of `f` and the others keep their value; the
flags of the active lanes are ORed into FPCTL (R182, R184). -/
def LanesWrite (s : State) (i : Instr) (d : BitVec 4) (k e : BitVec 3) (f : Nat → Result) : Prop :=
  ∃ (x : BitVec 512) (fl : Flags), Completes s i (goesOn (writeV (raiseFlags s fl) d.toNat x) 4)
    ∧ (∀ j, j < laneCount e → lane x (laneWidth e) j = if isActive s k j then (f j).bits % 2 ^ laneWidth e else lane (readV s d.toNat) (laneWidth e) j)
    ∧ ∀ b, fl.getLsbD b = true ↔ ∃ j, j < laneCount e ∧ isActive s k j = true ∧ (f j).flags.getLsbD b = true

/-- Where the checks pass, bit j of kd is 1 for an active lane whose condition holds and 0 otherwise (R186). -/
def LanesCompare (s : State) (i : Instr) (d k e : BitVec 3) (c : Nat → Bool × Flags) : Prop :=
  ∃ (m : Word) (fl : Flags), Completes s i (goesOn (writeK (raiseFlags s fl) d.toNat m) 4)
    ∧ (∀ j, j < 64 → m.getLsbD j = (decide (j < laneCount e) && isActive s k j && (c j).1))
    ∧ ∀ b, fl.getLsbD b = true ↔ ∃ j, j < laneCount e ∧ isActive s k j = true ∧ (c j).2.getLsbD b = true

/-- Loads of `n` bytes at addresses, one after another, that meet no cause: they begin in `s` and leave `u`. -/
def LoadsPass (n : Nat) : List Word → State → State → Prop
  | [], s, u => s = u
  | a :: as, s, u => ∃ t bs, load s a n = .ok t bs ∧ LoadsPass n as t u

/-- Elements of a vector store, each at its address, that meet no cause: their checks and grants begin in `s` and leave
`u`, and nothing is stored yet (R196, R237). -/
def StoresPass : List (Word × List Byte) → State → State → Prop
  | [], s, u => s = u
  | x :: xs, s, u => ∃ r ps t, resolve s .store (isUser s) x.1.toNat x.2.length = .ok r ps ∧ obtainAll r false ps = .ok t () ∧ StoresPass xs t u

/-- Bytes of the core's own local memory that an access of the core reads without a trap (R23, R87): outside the
stash and over no poisoned granule. -/
def OwnBytes (s : State) (a : Word) (n : Nat) : Prop :=
  a.toNat + n ≤ 0x100000 ∧ ∀ i, i < n → inStash s (ownKey s (a.toNat + i)) 1 = false ∧ s.mem.lpoison.get ((ownKey s a.toNat + i) / 8) = false

/-- The administrative command in progress has ended with a status and a value (R435): none is in progress, and the
first packet to the host beyond those before is its completion record, in the ring of queue 0. -/
def AdminEnds (s t : State) (status : Nat) (value : Word) : Prop :=
  let q := adminQueue s
  let tag := ofBytes ((s.cfe.command.getD []).take 4)
  t.cfe.command = none ∧ ∃ rest, t.cfe.toHost = s.cfe.toHost
    ++ hostPacket 8 (q.pring + BitVec.ofNat 64 (16 * (q.written % 2 ^ q.elog))) (toBytes 8 (status * 2 ^ 48 + tag) ++ toBytes 8 value.toNat) :: rest

/-- The administrative command `c` is in progress, its OP is `op`, its listed operand bits are `masks`, and the device
runs: its own conditions are checked next (R436, R438). -/
def AdminRuns (s : State) (c : List Byte) (op : Nat) (masks : List Word) : Prop :=
  s.cfe.command = some c ∧ commandOp c = op ∧ s.cfe.bootState ≠ 2 ∧ ∀ i, i < 7 → commandWord c (i + 1) &&& ~~~ (masks.getD i 0) = 0

/-- The command has read `bs` from host memory. -/
def HasRead (s : State) (bs : List Byte) : Prop := ∃ r, s.cfe.read = some r ∧ r.failed = false ∧ r.got = bs ∧ r.want ≤ bs.length

end Sys2Proof.Machine
end

