-- ==== Sys2Proof/Certificates/Slice0/Obligations.lean ====
section
/-! DEFINITION. The statements for the provers. Each docstring names the rules of the spec that the
statement follows; a clause that rests on a choice of the model says so. -/

open Sys2Proof Sys2Proof.Machine

/-! ## The step, the decoder and reset -/

/-- A step of the core runs the instruction that the bytes at the pc decode to (R34, R36, R39, R57), when the
core has the turn and nothing comes before the instruction: no dispatch, no MFETCH trap, no PARK request, no
step of the debug module, no line of code marked poisoned (R352). What the step adds around it: time has passed, and a
spilled window has come back. -/
def Obligations.StepRunsDecodedInstruction : Prop :=
  ∀ (s s1 s2 : State) (rest : List Act) (w len : Nat) (i : Instr),
    s.own.agenda = .turn .core :: rest →
    beforeFetch (coreTurn s rest) = s1 →
    canRun (coreTurn s rest) = true → (coreTurn s rest).cpu.parkWaits = false → (pendingMfetch (coreTurn s rest)).isSome = false →
    (dispatchLevel (coreTurn s rest)).isSome = false → Running (coreTurn s rest) →
    fetchInstr s1 (isUser s1) (readPc s1).toNat = .ok s2 (w, len) →
    poisonedCode s1 (readPc s1).toNat = none → (len = 4 → poisonedCode s2 ((readPc s1).toNat + 2) = none) → decode w = .ok i →
    (∀ t, exec i s2 = .next t → t.cpu.stepping = false) →
    step s = exec i s2

/-- Bytes of the core's own local memory above the constant window are fetched as they stand (R23, R34, R39):
two bytes when bits [1:0] of the first halfword are not 0b11, else four. Outside the stash regions, with no poison,
with no halfword that a store replaced since the last IFENCE (R37) and while no engine writes local memory (R227). -/
def Obligations.FetchReadsOwnLocalMemory : Prop :=
  ∀ (s : State) (user : Bool) (pc : Nat),
    0x800 ≤ pc → pc + 4 ≤ 0x100000 → inStash s (ownKey s pc) 2 = false → inStash s (ownKey s (pc + 2)) 2 = false → s.cpu.stale = [] →
    s.mem.lpoison = [] → s.mem.shadows = [] →
    fetchInstr s user pc =
      (let lo := ofBytes (getLocals s (ownKey s pc) 2)
       if lo % 4 = 3 then .ok s (lo + 65536 * ofBytes (getLocals s (ownKey s (pc + 2)) 2), 4) else .ok s (lo, 2))

/-- Words that the spec writes out for its encodings (R40 to R56, R61, R74, R81, R82, R95, R127, R163, R195)
decode to the instructions they stand for: one of each of several forms. -/
def Obligations.WordsDecode : Prop :=
  decode 0x000E6283 = .ok (.add 5 6 7) ∧ decode 0x020C5013 = .ok (.beq 5 6 32) ∧ decode 0x3FC0052F = .ok (.fli 10 0x3FC00)
    ∧ decode 0x1234528B = .ok (.lih 5 0x12345) ∧ decode 0x67805287 = .ok (.addImm 5 5 0x678)
    ∧ decode 0x0006639F = .ok (.ldd 7 6 0) ∧ decode 0xFF804D13 = .ok (.dbnz 4 0xFFA) ∧ decode 0x010002C3 = .ok (.csrr 5 0x010)
    ∧ decode 0x124E62BB = .ok (.fsub 5 6 7 1 1) ∧ decode 0x00D6A047 = .ok (.send 10 11 3) ∧ decode 0x05C328D7 = .ok (.vlds 1 5 6 0 7)
    ∧ decode 0x2B58754B = .ok (.cas2 10 7 12 1) ∧ decode 0x0000E001 = .ok .cNop

/-- Decoding the encoding of a well-formed instruction gives it back, with every operand at every value that
the encoding admits (R39 to R56): no bit of any encoding is dropped. The event rows of the table have no
words. -/
def Obligations.DecodeOfEncode : Prop :=
  ∀ i : Instr, i.wellFormed = true → i.isEvent = false → decode (encode i) = .ok i

/-- The memories keep their canonical form over every step, whatever agent acts and whatever it does (R23,
R207): keys rise strictly and no entry holds what an unlisted address reads as. The form is the model's own
(log entry 1). -/
def Obligations.StepKeepsMemoryForm : Prop :=
  ∀ s t : State, s.Inv → step s = .next t → t.Inv

/-- The state after reset has the memories in canonical form. -/
def Obligations.ResetMemoryForm : Prop :=
  State.reset.Inv

/-- No step stops the machine: the spec gives every instruction and every fault an effect, so each step
answers a next state. -/
def Obligations.EveryStepAnswers : Prop :=
  ∀ s : State, s.Safe

/-! ## General registers and the checks before an effect -/

/-- X(d) := v and the pc moves on (R11, R33, R38): x0 stays zero, every other register, every byte of memory,
every bank, every control register, every other frame and every other unit is as before, and on the core
RETIRED counts one more. -/
def Obligations.RegisterWriteFrame : Prop :=
  ∀ (s : State) (d : Reg) (v : Word) (n : Nat), Running s →
    let t := goesOn (writeX s d v) n
    (∀ r, readX t r = if r = 0 then 0 else if r = d then v else readX s r) ∧ readPc t = readPc s + word n
      ∧ SameOutsideWindow s t ∧ (s.own.turn = .core → t.cpu.retired = s.cpu.retired + 1)

/-- The frame of the instructions that write one general register and nothing else: every other register,
all of memory, FPCTL, the banks, the control registers and the other frames are unchanged (R11, R73). -/
def Obligations.RegisterInstructionFrame : Prop :=
  ∀ (s t : State) (i : Instr) (d : Reg), soleDestination i = some d → Running s → check s i = .pass → exec i s = .next t →
    (∀ r, r ≠ d → readX t r = readX s r) ∧ SameOutsideWindow s t ∧ (∀ a, getLocal t a = getLocal s a)
      ∧ (∀ k a, homeByte t k a = homeByte s k a)

/-- The order of the checks on the compute core (R59): a word outside the core's instructions traps ILLEGAL; an
instruction whose queue is full waits before its other checks (R13; the order is the model's reading, log entry 25); a
supervisor-only one in user mode traps PRIV, the checks of R95 come next, then UNDECL, WINDOW with the lowest register
outside the window, RSVD for a reserved rm3, the wait for an atomic of R242, and a poisoned register: R59 does not
place POISON among the execution causes, and that it comes here, with the address of the source that `poisonedSource`
takes, is the model's choice (log entry 42). -/
def Obligations.CheckOrder : Prop :=
  ∀ (s : State) (i : Instr), s.own.turn = .core →
    (i.wellFormed = false ∨ isBounded i = true → check s i = .raise causeIllegal (word (encode i)))
      ∧ (i.wellFormed = true → isBounded i = false → queueFull s i = true → check s i = .full)
      ∧ (i.wellFormed = true → isBounded i = false → queueFull s i = false →
        (isUser s = true → isSupervisorOnly i = true → check s i = .raise causePriv (word (encode i)))
        ∧ ((isUser s && isSupervisorOnly i) = false → csrCheck s i = .pass →
          (undeclared s i = true → check s i = .raise causeUndecl (word (encode i)))
          ∧ (undeclared s i = false →
            (∀ r, (∃ x ∈ namedRegs i, x.toNat = r) → windowSize s ≤ r → (∀ x ∈ namedRegs i, windowSize s ≤ x.toNat → r ≤ x.toNat) →
              check s i = .raise causeWindow (word r))
            ∧ ((∀ x ∈ namedRegs i, x.toNat < windowSize s) →
              ((roundingOf i = some 5 ∨ roundingOf i = some 6) → check s i = .reserved)
              ∧ (roundingOf i ≠ some 5 → roundingOf i ≠ some 6 → s.cpu.inFlight.any (namesReply s i) = false →
                check s i = (match poisonedSource s i with
                  | some p => .poisoned p.addr
                  | none => .pass))))))

/-- A check that raises a cause makes the instruction trap with it and have no other effect; a reserved value posts
RSVD and parks (R36, R57, R59). A poisoned register traps POISON, unless the instruction's own operand values are
reserved or ILLEGAL, which come first (R59); an instruction whose queue is full has not begun (R13). Where POISON
stands among the causes is the model's choice (log entry 42). -/
def Obligations.RaisedCheckTraps : Prop :=
  ∀ (s : State) (i : Instr), s.own.turn = .core → i.isEvent = false →
    (∀ c v, check s i = .raise c v → exec i s = .next (takeTrap s c v)) ∧ (check s i = .reserved → exec i s = .next (parkReserved s (word (encode i))))
      ∧ (∀ a, check s i = .poisoned a → exec i s = .next (takeTrap s causePoison a) ∨ exec i s = .next (parkReserved s (word (encode i)))
        ∨ ∃ v, exec i s = .next (takeTrap s causeIllegal v))
      ∧ (check s i = .full → s.cpu.stepping = false → exec i s = .next (waits (countEvent s 9 (Config.cycles s.own.tick))))

/-! ## Integer instructions -/

/-- The integer operations that write one register (R74, R80, R81): those of two registers, with the products of the
signed and of the unsigned integers and LEA's shift by 0 to 3; the smaller and larger values and the
set-if-less, signed and unsigned; and the immediate forms, where s is the sign-extended field and LIH and
ADDPC take the field followed by twelve zero bits. -/
def Obligations.IntegerOperations : Prop :=
  (∀ (s : State) (d a b : Reg) (n : BitVec 2),
      let x := readX s a
      let y := readX s b
      Writes s (.add d a b) d (x + y) 4 ∧ Writes s (.sub d a b) d (x - y) 4
        ∧ Writes s (.mul d a b) d (BitVec.ofNat 64 (x.toNat * y.toNat)) 4
        ∧ Writes s (.mulh d a b) d (BitVec.ofInt 64 (x.toInt * y.toInt / 2 ^ 64)) 4
        ∧ Writes s (.mulhu d a b) d (BitVec.ofNat 64 (x.toNat * y.toNat / 2 ^ 64)) 4
        ∧ Writes s (.and d a b) d (x &&& y) 4 ∧ Writes s (.or d a b) d (x ||| y) 4 ∧ Writes s (.xor d a b) d (x ^^^ y) 4
        ∧ Writes s (.andn d a b) d (x &&& ~~~ y) 4
        ∧ Writes s (.lea d a b n) d (BitVec.ofNat 64 (x.toNat + y.toNat * 2 ^ n.toNat)) 4)
    ∧ (∀ (s : State) (d a b : Reg),
      let x := readX s a
      let y := readX s b
      Writes s (.min d a b) d (BitVec.ofInt 64 (min x.toInt y.toInt)) 4 ∧ Writes s (.max d a b) d (BitVec.ofInt 64 (max x.toInt y.toInt)) 4
        ∧ Writes s (.minu d a b) d (BitVec.ofNat 64 (min x.toNat y.toNat)) 4
        ∧ Writes s (.maxu d a b) d (BitVec.ofNat 64 (max x.toNat y.toNat)) 4
        ∧ Writes s (.slt d a b) d (if x.toInt < y.toInt then 1 else 0) 4 ∧ Writes s (.sltu d a b) d (if x.toNat < y.toNat then 1 else 0) 4)
    ∧ (∀ (s : State) (d a : Reg) (i : BitVec 12) (u : BitVec 20),
      let x := readX s a
      let v := BitVec.ofInt 64 i.toInt
      Writes s (.addImm d a i) d (x + v) 4 ∧ Writes s (.sltImm d a i) d (if x.toInt < i.toInt then 1 else 0) 4
        ∧ Writes s (.sltuImm d a i) d (if x.toNat < v.toNat then 1 else 0) 4 ∧ Writes s (.andImm d a i) d (x &&& v) 4
        ∧ Writes s (.orImm d a i) d (x ||| v) 4 ∧ Writes s (.xorImm d a i) d (x ^^^ v) 4
        ∧ Writes s (.lih d u) d (BitVec.ofInt 64 (u.toInt * 4096)) 4
        ∧ Writes s (.addpc d u) d (readPc s + BitVec.ofInt 64 (u.toInt * 4096)) 4)

/-- Division never traps, truncates toward zero, and saturates where the quotient has no value (R75): every
row and every column of the rule's table. -/
def Obligations.DivisionTable : Prop :=
  ∀ (s : State) (d a b : Reg),
    let x := readX s a
    let y := readX s b
    (Writes s (.div d a b) d (if y = 0 then (if x.toInt > 0 then 0x7FFFFFFFFFFFFFFF else if x.toInt < 0 then 0x8000000000000000 else 0)
        else if x.toInt = -2 ^ 63 ∧ y.toInt = -1 then 0x7FFFFFFFFFFFFFFF else BitVec.ofInt 64 (x.toInt.tdiv y.toInt)) 4)
      ∧ Writes s (.divu d a b) d (if y = 0 then 0xFFFFFFFFFFFFFFFF else BitVec.ofNat 64 (x.toNat / y.toNat)) 4
      ∧ Writes s (.rem d a b) d (if y = 0 then x else if x.toInt = -2 ^ 63 ∧ y.toInt = -1 then 0
          else BitVec.ofInt 64 (x.toInt - y.toInt * x.toInt.tdiv y.toInt)) 4
      ∧ Writes s (.remu d a b) d (if y = 0 then x else BitVec.ofNat 64 (x.toNat - y.toNat * (x.toNat / y.toNat))) 4

/-- The shifts by registers take bits [5:0] of the amount and ignore the rest, and those by immediates take
the six bits of the field; SRA fills with copies of bit 63 (the floor of a division), ROT rotates right (R76). -/
def Obligations.Shifts : Prop :=
  ∀ (s : State) (d a b : Reg) (k : BitVec 6),
    let x := readX s a
    let n := (readX s b).toNat % 64
    let rot := fun m => BitVec.ofNat 64 (x.toNat / 2 ^ m) ||| BitVec.ofNat 64 (x.toNat * 2 ^ (64 - m))
    Writes s (.shl d a b) d (BitVec.ofNat 64 (x.toNat * 2 ^ n)) 4 ∧ Writes s (.shr d a b) d (BitVec.ofNat 64 (x.toNat / 2 ^ n)) 4
      ∧ Writes s (.sra d a b) d (BitVec.ofInt 64 (x.toInt / 2 ^ n)) 4 ∧ Writes s (.rot d a b) d (rot n) 4
      ∧ Writes s (.shli d a k) d (BitVec.ofNat 64 (x.toNat * 2 ^ k.toNat)) 4
      ∧ Writes s (.shri d a k) d (BitVec.ofNat 64 (x.toNat / 2 ^ k.toNat)) 4
      ∧ Writes s (.srai d a k) d (BitVec.ofInt 64 (x.toInt / 2 ^ k.toNat)) 4 ∧ Writes s (.roti d a k) d (rot k.toNat) 4

/-- Counts, selection and fields of bits (R77 to R79). CLZ gives the n with 63 − n the place of the highest set bit, CTZ
the place of the lowest, both 64 for a register of zero; SEL reads rd as its condition and overwrites it, and
with rd = x0 has no effect but to go on; BEXT takes the field of w bits at POS, zero- or sign-extended, and BINS puts
it into the old value of rd. -/
def Obligations.BitOperations : Prop :=
  (∀ (s : State) (d a : Reg),
      let x := readX s a
      (x = 0 → Writes s (.clz d a) d 64 4 ∧ Writes s (.ctz d a) d 64 4)
        ∧ (∀ n, n < 64 → x.getLsbD n = true → (∀ m, n < m → x.getLsbD m = false) → Writes s (.clz d a) d (BitVec.ofNat 64 (63 - n)) 4)
        ∧ (∀ n, n < 64 → x.getLsbD n = true → (∀ m, m < n → x.getLsbD m = false) → Writes s (.ctz d a) d (BitVec.ofNat 64 n) 4)
        ∧ Writes s (.popc d a) d (BitVec.ofNat 64 ((List.range 64).countP fun n => x.getLsbD n)) 4)
    ∧ (∀ (s : State) (d a b : Reg),
      Writes s (.sel d a b) d (if readX s d ≠ 0 then readX s a else readX s b) 4 ∧ Completes s (.sel 0 a b) (goesOn s 4))
    ∧ (∀ (s : State) (d a b : Reg),
      let x := readX s a
      let y := readX s b
      let w := (y.toNat / 256) % 64 + 1
      let p := y.toNat % 64
      ∃ e i : Word,
        Writes s (.bext d a b) d e 4 ∧ Writes s (.bins d a b) d i 4
          ∧ (∀ n, n < 64 → e.getLsbD n = if n < w then x.getLsbD (p + n) else (y.getLsbD 16 && x.getLsbD (p + w - 1)))
          ∧ (∀ n, n < 64 → i.getLsbD n = if p ≤ n ∧ n < p + w then x.getLsbD (n - p) else (readX s d).getLsbD n))

/-- The compare-and-branch instructions go to PC + 2 × sext64(off) where the comparison holds, else to the
next instruction (R47, R82), and DBNZ counts down and branches while the count is not zero (R83). -/
def Obligations.BranchOperations : Prop :=
  ∀ (s : State) (a b : Reg) (off : BitVec 12),
    let x := readX s a
    let y := readX s b
    let o := BitVec.ofInt 64 off.toInt
    Branches s (.beq a b off) (x = y) s o 4 ∧ Branches s (.bne a b off) (x ≠ y) s o 4
      ∧ Branches s (.blt a b off) (x.toInt < y.toInt) s o 4 ∧ Branches s (.bge a b off) (y.toInt ≤ x.toInt) s o 4
      ∧ Branches s (.bltu a b off) (x.toNat < y.toNat) s o 4 ∧ Branches s (.bgeu a b off) (y.toNat ≤ x.toNat) s o 4
      ∧ Branches s (.dbnz a off) (x - 1 ≠ 0) (writeX s a (x - 1)) o 4

/-- JAL and JALR write the address of the next instruction and jump; JALR computes its target from the old
value of ra, and an odd target traps MISALIGN and writes nothing (R33, R84). In a queue program `jal x0, .` is
the program's end (R440, R441). -/
def Obligations.Jumps : Prop :=
  ∀ (s : State) (d a : Reg) (i : BitVec 12) (u : BitVec 20),
    let t := readX s a + BitVec.ofInt 64 i.toInt
    (s.own.turn = .core ∨ u ≠ 0 → Completes s (.jal d u) (jumpsTo (writeX s d (readPc s + 4)) (readPc s + BitVec.ofInt 64 u.toInt * 2)))
      ∧ (∀ n, s.own.turn = .cfe n → Completes s (.jal 0 0) (queueEnd s n))
      ∧ (t.getLsbD 0 = false → Completes s (.jalr d a i) (jumpsTo (writeX s d (readPc s + 4)) t))
      ∧ (t.getLsbD 0 = true → s.own.turn = .core → Completes s (.jalr d a i) (takeTrap s causeMisalign t))

/-! ## The 16-bit instructions -/

/-- The 16-bit instructions have the effect of their 32-bit equivalents, with a length of 2 (R44): the link of a jump is
PC + 2, and offsets count halfwords. -/
def Obligations.ShortForms : Prop :=
  (∀ (s : State) (a d : Reg) (k : BitVec 6),
      let x := readX s a
      let y := readX s d
      let v := BitVec.ofInt 64 k.toInt
      Writes s (.cAddi d k) d (y + v) 2 ∧ Writes s (.cLi d k) d v 2 ∧ Writes s (.cShli d k) d (y <<< k.toNat) 2
        ∧ Writes s (.cShri d k) d (y >>> k.toNat) 2 ∧ Writes s (.cSrai d k) d (y.sshiftRight k.toNat) 2 ∧ Writes s (.cAndi d k) d (y &&& v) 2
        ∧ Writes s (.cMv a d) d x 2 ∧ Writes s (.cAdd a d) d (y + x) 2 ∧ Writes s (.cSub a d) d (y - x) 2 ∧ Writes s (.cAnd a d) d (y &&& x) 2
        ∧ Writes s (.cOr a d) d (y ||| x) 2 ∧ Writes s (.cXor a d) d (y ^^^ x) 2 ∧ Completes s .cNop (goesOn s 2))
    ∧ (∀ (s : State) (a d : Reg) (k : BitVec 6) (j : BitVec 11), s.own.turn = .core →
      let x := readX s a
      let o := BitVec.ofInt 64 k.toInt
      Branches s (.cBeqz a k) (x = 0) s o 2 ∧ Branches s (.cBnez a k) (x ≠ 0) s o 2
        ∧ Branches s (.cDbnz a k) (x - 1 ≠ 0) (writeX s a (x - 1)) o 2
        ∧ Completes s (.cJ j) (jumpsTo s (readPc s + BitVec.ofInt 64 j.toInt * 2))
        ∧ (x.getLsbD 0 = false → Completes s (.cJr a) (jumpsTo s x) ∧ Completes s (.cJalr a d) (jumpsTo (writeX s d (readPc s + 2)) x))
        ∧ (x.getLsbD 0 = true → Completes s (.cJr a) (takeTrap s causeMisalign x) ∧ Completes s (.cJalr a d) (takeTrap s causeMisalign x)))

/-! ## Loads and stores -/

/-- The loads and stores (R86, R44, R94): the address is X(ra) + sext64(imm12), the bytes stand little-endian, a loaded
value is sign- or zero-extended, and a store writes the low bytes of its source; the 16-bit forms take x2 and a
scaled field, or the register itself. -/
def Obligations.LoadsAndStores : Prop :=
  (∀ (s : State) (d a : Reg) (i : BitVec 12) (k : BitVec 6),
      let x := readX s a
      let p := x + BitVec.ofInt 64 i.toInt
      let sp := readX s 2 + BitVec.ofNat 64 (8 * k.toNat)
      let signed := fun (n : Nat) (bs : List Byte) => (BitVec.ofNat (8 * n) (ofBytes bs)).signExtend 64
      let zero := fun (bs : List Byte) => BitVec.ofNat 64 (ofBytes bs)
      Loads s (.ldb d a i) p 1 d (signed 1) 4 ∧ Loads s (.ldh d a i) p 2 d (signed 2) 4 ∧ Loads s (.ldw d a i) p 4 d (signed 4) 4
        ∧ Loads s (.ldd d a i) p 8 d zero 4 ∧ Loads s (.ldbu d a i) p 1 d zero 4 ∧ Loads s (.ldhu d a i) p 2 d zero 4
        ∧ Loads s (.ldwu d a i) p 4 d zero 4 ∧ Loads s (.cLddSp d k) sp 8 d zero 2 ∧ Loads s (.cLdd a d) x 8 d zero 2
        ∧ Loads s (.cLdw a d) x 4 d (signed 4) 2)
    ∧ (∀ (s : State) (r a : Reg) (i : BitVec 12) (k : BitVec 6) (m : BitVec 2),
      let x := readX s a
      let p := x + BitVec.ofInt 64 i.toInt
      let sp := readX s 2 + BitVec.ofNat 64 (8 * k.toNat)
      Stores s (.stb r a i) p 1 (readX s r) 4 ∧ Stores s (.sth r a i) p 2 (readX s r) 4 ∧ Stores s (.stw r a i) p 4 (readX s r) 4
        ∧ Stores s (.std r a i) p 8 (readX s r) 4 ∧ Stores s (.stx m a i) p 8 (readE s m.toNat) 4
        ∧ Stores s (.cStdSp r k) sp 8 (readX s r) 2 ∧ Stores s (.cStd a r) x 8 (readX s r) 2 ∧ Stores s (.cStw a r) x 4 (readX s r) 2)

/-- Accesses of the core to its own local memory (R23, R26, R86, R87), outside the stash. A load over no poisoned granule,
of bytes that no engine operation is writing (R227),
answers the bytes as they stand and changes nothing. A store changes its bytes and no other byte of any
memory; in the constant window it needs supervisor mode and an entry below 192. -/
def Obligations.LocalAccesses : Prop :=
  (∀ (s : State) (a n : Nat),
      s.own.turn = .core → isFenced s 0 = false → s.mem.shadows = [] → 1 ≤ n → n ≤ 64 → a + n ≤ 0x100000 →
      (∀ i, i < n → inStash s (ownKey s (a + i)) 1 = false ∧ s.mem.lpoison.get ((ownKey s a + i) / 8) = false) →
      load s (BitVec.ofNat 64 a) n = .ok s (getLocals s (ownKey s a) n))
    ∧ (∀ (s : State) (a : Nat) (bs : List Byte),
      s.own.turn = .core → isFenced s 0 = false → 1 ≤ bs.length → bs.length ≤ 64 → a + bs.length ≤ 0x100000 → s.mem.buffer.length ≤ 16 →
      (∀ i, i < bs.length → inStash s (ownKey s (a + i)) 1 = false) → (0x800 ≤ a ∨ (isUser s = false ∧ a + bs.length ≤ 0x600)) →
      ∃ t, store s (BitVec.ofNat 64 a) bs = .ok t ()
        ∧ (∀ k, getLocal t k = if ownKey s a ≤ k ∧ k < ownKey s a + bs.length then bs.getD (k - ownKey s a) 0 else getLocal s k)
        ∧ { t.mem with lmem := s.mem.lmem, lpoison := s.mem.lpoison, unknown := s.mem.unknown, shadows := s.mem.shadows } = s.mem ∧ { t.cpu with stale := s.cpu.stale } = s.cpu
        ∧ t.eng = s.eng ∧ t.net = s.net ∧ t.fab = s.fab ∧ t.cfe = s.cfe ∧ t.dbg = s.dbg ∧ t.own = s.own ∧ t.contexts = s.contexts)

/-- THE VALUES AND THE FRAME OF A STORE (R86, R92, R237): when a store of the core is made, each byte of the pieces
that `resolve` computes for it takes its value in the core's own view, in local memory or in its line; every
other byte of local memory and of every global line is as translation left it, and so is home memory itself, which
a plain store does not reach before it is published. Translation changes no byte of local memory and no
register, and no memory at all unless it reads tables, which may move lines between the levels (R209, R219). The
slices have room for the lines that the store asks grants of, the buffer has room for its entries, and the core
holds nothing of the lines under another key id. -/
def Obligations.StoreFrame : Prop :=
  ∀ (s r t : State) (a : Word) (bs : List Byte) (ps : List Piece),
    s.own.turn = .core → 1 ≤ bs.length → bs.length ≤ 64 → resolve s .store (isUser s) a.toNat bs.length = .ok r ps →
    (∀ p ∈ ps, ∀ l, p.leaf = some l → (isHome r (pieceLine p) = true → hasRoom r (pieceLine p)) ∧ KeyedAs r (pieceLine p) (leafKey l)) →
    r.mem.buffer.length + (newLines r ps).length ≤ 16 → store s a bs = .ok t () →
    (∀ p ∈ ps, ∀ j, j < p.n →
        (p.leaf = none → getLocal t (p.key + j) = bs.getD (p.va - a.toNat + j) 0)
          ∧ ∀ l, p.leaf = some l → ownByte t (pieceLine p) (leafKey l) (p.key % 128 + j) = bs.getD (p.va - a.toNat + j) 0)
      ∧ (∀ k, (∀ p ∈ ps, p.leaf = none → k < p.key ∨ p.key + p.n ≤ k) → getLocal t k = getLocal r k)
      ∧ (∀ ln key off, (∀ p ∈ ps, p.leaf ≠ none → pieceLine p = ln → off < p.key % 128 ∨ p.key % 128 + p.n ≤ off) →
        ownByte t ln key off = ownByte r ln key off)
      ∧ (∀ key pa, homeByte t key pa = homeByte r key pa) ∧ window t = window s
      ∧ (∀ k, getLocal r k = getLocal s k) ∧ (r.mem.tlb = s.mem.tlb → r.mem = s.mem)

/-- The causes of a plain access that precede its translation, in the order of R87 and R88: an end beyond
2^55 − 1 is ADDR, the hole of R23 and the stash region are ACCESS, as is a store that R26 forbids, and an access
that leaves its region is ALIGNATTR. Each traps with the address in TRAPVAL and no effect. -/
def Obligations.EarlyAccessCauses : Prop :=
  ∀ (s : State) (a n : Nat), s.own.turn = .core → isFenced s 0 = false → 1 ≤ n → n ≤ 64 → a < 2 ^ 64 →
    let bad := fun (c : BitVec 8) => load s (BitVec.ofNat 64 a) n = .trap s c (BitVec.ofNat 64 a)
      ∧ ∀ bs : List Byte, bs.length = n → store s (BitVec.ofNat 64 a) bs = .trap s c (BitVec.ofNat 64 a)
    (2 ^ 55 < a + n → bad causeAddr) ∧ (0x500000 < a + n → a < 2 ^ 32 → bad causeAccess)
      ∧ ((∃ i, i < n ∧ inStash s (localKey s (a + i)) 1 = true) → a + n ≤ 0x500000 → bad causeAccess)
      ∧ (a < 0x800 → isUser s = true → a + n ≤ 0x500000 → ∀ bs : List Byte, bs.length = n →
          store s (BitVec.ofNat 64 a) bs = .trap s causeAccess (BitVec.ofNat 64 a))
      ∧ (a < 0x100000 → 0x100000 < a + n → (∀ i, i < n → inStash s (localKey s (a + i)) 1 = false) →
          load s (BitVec.ofNat 64 a) n = .trap s causeAlignattr (BitVec.ofNat 64 a))

/-- Constant-window operands (R93): cw is the doubleword at 8 × index of the core's own local memory; where its granule is
poisoned the instruction traps POISON with the entry's address. The extension registers of the current level's
bank (R94): LDX and MTE write one and no other register, MFE reads one. -/
def Obligations.ConstantsAndExtensions : Prop :=
  (∀ (s : State) (d a : Reg) (i : BitVec 8) (m : BitVec 2), s.own.turn = .core → isFenced s 0 = false → s.mem.shadows = [] →
      let x := readX s a
      let cw := BitVec.ofNat 64 (ofBytes (getLocals s (ownKey s (8 * i.toNat)) 8))
      let poisoned := localPoison s (ownKey s (8 * i.toNat)) 8
      (poisoned = false →
        Writes s (.ldk d i) d cw 4 ∧ Writes s (.addK d a i) d (x + cw) 4 ∧ Writes s (.subK d a i) d (x - cw) 4
          ∧ Writes s (.mulK d a i) d (BitVec.ofNat 64 (x.toNat * cw.toNat)) 4 ∧ Writes s (.andK d a i) d (x &&& cw) 4
          ∧ Writes s (.orK d a i) d (x ||| cw) 4 ∧ Writes s (.xorK d a i) d (x ^^^ cw) 4 ∧ Writes s (.cLdk d i) d cw 2
          ∧ Completes s (.ldxK m i) (goesOn (writeE s m.toNat cw) 4))
        ∧ (poisoned = true → ∀ j ∈ [Instr.ldk d i, .addK d a i, .subK d a i, .mulK d a i, .andK d a i, .orK d a i, .xorK d a i, .cLdk d i, .ldxK m i],
          Completes s j (takeTrap s causePoison (BitVec.ofNat 64 (8 * i.toNat)))))
    ∧ (∀ (s : State) (d a : Reg) (i : BitVec 12) (m : BitVec 2),
      Completes s (.mte m a) (goesOn (writeE s m.toNat (readX s a)) 4) ∧ Writes s (.mfe d m) d (readE s m.toNat) 4
        ∧ (∀ t bs, load s (readX s a + BitVec.ofInt 64 i.toInt) 8 = .ok t bs →
          Completes s (.ldx m a i) (goesOn (writeE t m.toNat (BitVec.ofNat 64 (ofBytes bs))) 4))
        ∧ (∀ (v : Word) (j : BitVec 2), readE (writeE s m.toNat v) j.toNat = if j = m then v else readE s j.toNat)
        ∧ ∀ v : Word, { (writeE s m.toNat v).cpu with e := s.cpu.e, bankPoison := s.cpu.bankPoison } = s.cpu ∧ (writeE s m.toNat v).mem = s.mem)

/-! ## Scalar floating point -/

/-- The operations on registers (R127 to R129, R132 to R135): operands are the low 32 or 64 bits of their
registers, the mode is rm3, or FPCTL.RM where rm3 is 111, and the result is zero-extended. A finite result of the
arithmetic is one rounding of the exact result, as `CorrectRounding` states; of two numbers the comparisons
follow the values, FMIN and FMAX give the smaller and the larger, −0 below +0, and the sign operations give the first
operand's magnitude with the new sign. -/
def Obligations.FloatRegisterOperations : Prop :=
  ∀ (s : State) (d a b c : Reg) (f m : BitVec 3) (g : BitVec 1),
    let F := if f = 1 then fp64 else fp32
    let k := if m = 7 then currentMode s else modeOf m.toNat
    let x := (readX s a).toNat % 2 ^ F.width
    let y := (readX s b).toNat % 2 ^ F.width
    let G := if g = 1 then fp64 else fp32
    let w := fun (r : Reg) => (readX s r).toNat % 2 ^ G.width
    FloatWrites s (.fadd d a b f m) d (F.add k x y) ∧ FloatWrites s (.fsub d a b f m) d (F.sub k x y)
      ∧ FloatWrites s (.fmul d a b f m) d (F.mul k x y) ∧ FloatWrites s (.fdiv d a b f m) d (F.div k x y)
      ∧ FloatWrites s (.fsqrt d a f m) d (F.sqrt k x) ∧ FloatWrites s (.ffma d a b c g m) d (G.fma k (w a) (w b) (w c))
      ∧ FloatWrites s (.fmin d a b f) d (F.min x y) ∧ FloatWrites s (.fmax d a b f) d (F.max x y)
      ∧ (∀ cond : BitVec 2, FloatWrites s (.fcmp d a b f cond) d
        { bits := if (F.compare cond.toNat x y).1 then 1 else 0, flags := (F.compare cond.toNat x y).2 })
      ∧ Writes s (.fclass d a f) d (BitVec.ofNat 64 (F.classWord x)) 4
      ∧ FloatWrites s (.fsgn d a b f) d (F.withSign (fun _ t => t) x y) ∧ FloatWrites s (.fsgnn d a b f) d (F.withSign (fun _ t => !t) x y)
      ∧ FloatWrites s (.fsgnx d a b f) d (F.withSign (fun r t => r != t) x y)
      ∧ (F.isNaN x = false → F.isNaN y = false →
        (∀ e g : Int, ∀ p q l n, F.decode x = .fin p l e → F.decode y = .fin q n g → ∀ u, u ≤ e → u ≤ g →
          let X := (F.decode x).multiple u
          let Y := (F.decode y).multiple u
          F.compare 0 x y = (decide (X = Y), 0) ∧ F.compare 1 x y = (decide (X < Y), 0) ∧ F.compare 2 x y = (decide (X ≤ Y), 0) ∧ F.compare 3 x y = (false, 0)
            ∧ F.min x y = { bits := if X < Y ∨ (X = Y ∧ p = true) then x else y, flags := 0 }
            ∧ F.max x y = { bits := if Y < X ∨ (X = Y ∧ p = false) then x else y, flags := 0 })
          ∧ ∀ sign, F.withSign sign x y = { bits := x % 2 ^ (F.width - 1) + (if sign (F.sign x) (F.sign y) then 2 ^ (F.width - 1) else 0), flags := 0 })

/-- The forms with an immediate or a constant-window entry (R130, R131), which round by FPCTL.RM: the immediate is the FP32
pattern with twelve zero bits below, and FLI writes it, a NaN pattern as the canonical NaN. FCVT between the
eight types of R52 (R117, R118, R125, R136): the source is the low bits of its register, the exact value is rounded
once, as `CorrectRounding` states, INT32 results are sign-extended and all others zero-extended. -/
def Obligations.FloatConstantsAndConversions : Prop :=
  (∀ (s : State) (d a : Reg) (p : BitVec 1) (i : BitVec 8) (u : BitVec 20), s.own.turn = .core → isFenced s 0 = false → s.mem.shadows = [] →
      localPoison s (ownKey s (8 * i.toNat)) 8 = false →
      let F := if p = 1 then fp64 else fp32
      let k := currentMode s
      let cw := ofBytes (getLocals s (ownKey s (8 * i.toNat)) 8) % 2 ^ F.width
      let x := (readX s a).toNat % 2 ^ F.width
      let y := (readX s d).toNat % 2 ^ F.width
      let z := (readX s d).toNat % 2 ^ 32
      let v := u.toNat * 4096
      FloatWrites s (.faddK d a p i) d (F.add k x cw) ∧ FloatWrites s (.fsubK d a p i) d (F.sub k x cw)
        ∧ FloatWrites s (.fmulK d a p i) d (F.mul k x cw) ∧ FloatWrites s (.ffmaK d a p i) d (F.fma k y x cw)
        ∧ Writes s (.fli d u) d (if fp32.isNaN v then 0x7FC00000 else BitVec.ofNat 64 v) 4
        ∧ FloatWrites s (.faddi d u) d (fp32.add k z v) ∧ FloatWrites s (.fmuli d u) d (fp32.mul k z v))
    ∧ (∀ (s : State) (d a : Reg) (t f m : BitVec 3),
      let k := if m = 7 then currentMode s else modeOf m.toNat
      let r := convert (scalarType t) (scalarType f) k false ((readX s a).toNat % 2 ^ (scalarType f).width)
      Completes s (.fcvt d a t f m) (goesOn (writeX (raiseFlags s r.flags) d (if t = 2 then (BitVec.ofNat 32 r.bits).signExtend 64 else BitVec.ofNat 64 r.bits)) 4)
        ∧ scalarType 0 = .float fp32 ∧ scalarType 1 = .float fp64 ∧ scalarType 2 = .int true 32 ∧ scalarType 3 = .int false 32
        ∧ scalarType 4 = .int true 64 ∧ scalarType 5 = .int false 64 ∧ scalarType 6 = .float bf16 ∧ scalarType 7 = .float fp16)

/-- An exact value that a format holds rounds to itself, in every mode and without a flag (R104, R114): of each of
the ten formats, every element that is no NaN. -/
def Obligations.ExactValuesRoundToThemselves : Prop :=
  ∀ (f : Format) (k : Mode) (x : Nat), f ∈ [fp64, fp32, bf16, fp16, e5m2, e4m3, e3m4, e3m2, e2m3, e2m1] →
    x < 2 ^ f.width → f.isNaN x = false → f.round k false (f.decode x) = { bits := x, flags := 0 }

/-- Rounding is correct in all five modes of R114, in each of the ten formats (R104, R114, R116, R118), and an operation
on finite values is one rounding of the exact result (R114, R127 to R129): the sum, the difference, the product, the
quotient, the square root and a × b + c; an exact zero sum of opposite signs is +0, or −0 under RDN. A conversion to
an integer rounds the exact value once and then saturates (R117, R118, R136). Values are compared as multiples of
2^b, or of 2^2b, for a b at or below every exponent that occurs. -/
def Obligations.CorrectRounding : Prop :=
  ∀ (k : Mode) (b : Int), k ∈ [Mode.rne, .rtz, .rdn, .rup, .rna] → b ≤ 0 →
    let unit : Nat := 2 ^ (-b).toNat
    (∀ (f : Format) (neg : Bool) (m : Nat) (e : Int), f ∈ [fp64, fp32, bf16, fp16, e5m2, e4m3, e3m4, e3m2, e2m3, e2m1] → m ≠ 0 → b ≤ e →
        b ≤ 1 - (f.bias : Int) - f.fb →
        let v := m * 2 ^ (e - b).toNat
        f.Delivers k neg b (· ≤ 2 * v) (2 * v ≤ ·) (f.round k false (.fin neg m e)))
      ∧ (∀ (f : Format) (x y z : Nat) (p q r : Bool) (l m n : Nat) (d e g : Int), f ∈ [fp64, fp32, bf16, fp16] → b ≤ 1 - (f.bias : Int) - f.fb →
        f.decode x = .fin p l d → f.decode y = .fin q m e → f.decode z = .fin r n g → b ≤ d → b ≤ e → b ≤ g →
        let X := (f.decode x).multiple b
        let Y := (f.decode y).multiple b
        let Z := (f.decode z).multiple b
        let rounded := fun (c v : Int) (o : Result) => v ≠ 0 → f.Delivers k (decide (v < 0)) c (· ≤ 2 * v.natAbs) (2 * v.natAbs ≤ ·) o
        rounded b (X + Y) (f.add k x y) ∧ rounded b (X - Y) (f.sub k x y) ∧ rounded (2 * b) (X * Y) (f.mul k x y)
          ∧ rounded (2 * b) (X * Y + Z * unit) (f.fma k x y z)
          ∧ (X + Y = 0 → f.add k x y = { bits := f.signed (if p = q then p else decide (k = .rdn)) 0, flags := 0 })
          ∧ (X ≠ 0 → Y ≠ 0 → f.Delivers k (p != q) b (· * Y.natAbs ≤ 2 * X.natAbs * unit) (2 * X.natAbs * unit ≤ · * Y.natAbs) (f.div k x y))
          ∧ (0 < X → f.Delivers k false b (fun t => t * t ≤ 4 * X.natAbs * unit) (fun t => 4 * X.natAbs * unit ≤ t * t) (f.sqrt k x)))
      ∧ (∀ (sg : Bool) (w : Nat) (src : NumType) (x m : Nat) (neg : Bool) (e : Int), w = 32 ∨ w = 64 → src ∈ [NumType.float fp64, .float fp32, .float bf16, .float fp16] →
        src.decode x = .fin neg m e → b ≤ e →
        let v := m * 2 ^ (e - b).toNat
        let low : Int := if sg then -2 ^ (w - 1) else 0
        let high : Int := if sg then 2 ^ (w - 1) - 1 else 2 ^ w - 1
        ∃ n, RoundsTo k neg (· * unit) (· ≤ 2 * v) (2 * v ≤ ·) n ∧
          let i : Int := if neg then -n else n
          convert (.int sg w) src k false x = (if i < low then { bits := (low % 2 ^ w).toNat, flags := flagNV } else if high < i then { bits := high.toNat, flags := flagNV }
            else { bits := (i % 2 ^ w).toNat, flags := if n * unit = v then 0 else flagNX }))

/-- A NaN result is the canonical NaN of its format (R108), and the invalid operations of R116 raise NV: sums of
opposite infinities, products of zero and infinity, the quotients of two zeros and of two infinities, and roots
of negative values; a finite value other than zero divided by zero raises DZ. -/
def Obligations.InvalidOperations : Prop :=
  ∀ (f : Format) (k : Mode) (x y : Nat), f ∈ [fp64, fp32, bf16, fp16, e5m2] → x < 2 ^ f.width → y < 2 ^ f.width →
    (∀ r ∈ [f.add k x y, f.sub k x y, f.mul k x y, f.div k x y, f.sqrt k x, f.min x y, f.max x y], f.isNaN r.bits = true → r.bits = f.nanCode)
      ∧ (f.isInf x = true → f.isInf y = true → f.sign x ≠ f.sign y → f.add k x y = { bits := f.nanCode, flags := flagNV })
      ∧ (f.isInf x = true → f.magnitude y = 0 → f.mul k x y = { bits := f.nanCode, flags := flagNV })
      ∧ (f.isInf x = true → f.isInf y = true → f.div k x y = { bits := f.nanCode, flags := flagNV })
      ∧ (f.magnitude x = 0 → f.magnitude y = 0 → f.div k x y = { bits := f.nanCode, flags := flagNV })
      ∧ (f.isNaN x = false → f.isInf x = false → f.magnitude x ≠ 0 → f.magnitude y = 0 → (f.div k x y).flags = flagDZ ∧ f.isInf (f.div k x y).bits = true)
      ∧ (f.sign x = true → f.isNaN x = false → f.magnitude x ≠ 0 → f.sqrt k x = { bits := f.nanCode, flags := flagNV })

/-! ## System instructions, control registers, traps -/

/-- The system instructions (R71, R96, R97, R99, R100): NOP, and SPT without a pending switch, only go on;
IFENCE drops what earlier fetches may still have seen; SVC and BRK trap with their code; with BRKEN a BRK
enters debug mode (R373). -/
def Obligations.SystemInstructions : Prop :=
  ∀ (s : State) (c n : BitVec 12), s.own.turn = .core →
    Completes s .nop (goesOn s 4) ∧ (switchPending s = false → Completes s (.spt n) (goesOn s 4))
      ∧ Completes s .ifence (goesOn { s with cpu := { s.cpu with stale := [] } } 4)
      ∧ Completes s (.svc c) (takeTrap s causeSvc (BitVec.ofNat 64 c.toNat))
      ∧ (debugOn s s.dbg.brken = false → Completes s (.brk c) (takeTrap s causeBrk (BitVec.ofNat 64 c.toNat))
        ∧ Completes s .cBrk (takeTrap s causeBrk (BitVec.ofNat 64 (encode .cBrk))))
      ∧ (debugOn s s.dbg.brken = true → Completes s (.brk c) (haltCore s 3) ∧ Completes s .cBrk (haltCore s 3))

/-- TAKING A TRAP (R345, R346): outside a trap frame, with a valid TVEC and no halt on traps. TRAPCAUSE, TRAPPC
and TRAPVAL are written, the core is in supervisor mode in a trap frame at TVEC's address whose window of 32
registers starts with TSCR, TRAPCAUSE, TRAPPC and TRAPVAL in x2 to x5; the frame stack, level, threshold and
memory are as before. -/
def Obligations.TrapEntry : Prop :=
  ∀ (s : State) (c : BitVec 8) (v : Word), s.own.turn = .core → s.cpu.trap = none → s.cpu.halted = false → debugOn s s.dbg.trapen = false →
    s.cpu.tvec.getLsbD 0 = true →
    let t := takeTrap s c v
    t.cpu.trapCause = BitVec.ofNat 64 c.toNat ∧ t.cpu.trapPc = readPc s ∧ t.cpu.trapVal = v
      ∧ readPc t = s.cpu.tvec &&& 0xFFFFFFFFFFF8 ∧ mode t = 1 ∧ windowSize t = 32
      ∧ (∀ r, readX t r = if r = 2 then s.cpu.tscr else if r = 3 then BitVec.ofNat 64 c.toNat else if r = 4 then readPc s else if r = 5 then v else 0)
      ∧ t.cpu.frames = s.cpu.frames ∧ level t = level s ∧ thrWord t = thrWord s ∧ t.mem = settledMem s ∧ t.cpu.parked = s.cpu.parked
      ∧ t.cpu.retired = s.cpu.retired ∧ (t.cpu.trap.map TrapFrame.keptMode) = some (mode s)
      ∧ (c ≠ causeRace → c ≠ causePoison → { t with cpu := s.cpu, mem := s.mem } = s)

/-- A trap inside a trap frame is nested: the trap registers keep what the first trap set, the trap frame stays,
and the core parks at the nested instruction. A trap with TVEC.V = 0 writes the registers, pushes no frame and
parks (R349). -/
def Obligations.NestedTraps : Prop :=
  ∀ (s : State) (c : BitVec 8) (v : Word), s.own.turn = .core →
    let t := takeTrap s c v
    (s.cpu.trap.isSome = true → t.cpu.trapCause = s.cpu.trapCause ∧ t.cpu.trapPc = s.cpu.trapPc ∧ t.cpu.trapVal = s.cpu.trapVal
        ∧ t.cpu.trap.isSome = true ∧ t.cpu.parked = some (readPc s))
      ∧ (s.cpu.trap = none → debugOn s s.dbg.trapen = false → s.cpu.tvec.getLsbD 0 = false →
        t.cpu.trapCause = BitVec.ofNat 64 c.toNat ∧ t.cpu.trapPc = readPc s ∧ t.cpu.trapVal = v ∧ t.cpu.trap = none ∧ t.cpu.parked = some (readPc s))

/-- RETURNING FROM A TRAP (R98, R350): TRET leaves the trap frame and goes on at TRAPPC in the frame that trapped,
whose registers it does not change; with bit 0 of TRAPPC set the core traps MISALIGN after the frame is left,
with TRAPPC at the TRET; from a trap on an idle core it leaves the core idle. A PARK request that waited for the
trap frame's TRET acts at once (R368). The abort that TRET applies to the operation of an MFETCH (R293) is left
out here. -/
def Obligations.TrapReturn : Prop :=
  ∀ (s : State) (f : TrapFrame), s.own.turn = .core → s.cpu.trap = some f → f.operation = none ∨ s.cpu.trapCause ≠ causeMfetch.zeroExtend 64 → check s .tret = .pass →
    ∃ t, exec .tret s = .next t
      ∧ (f.onIdle = false → s.cpu.trapPc.getLsbD 0 = false → s.cpu.frames ≠ [] → s.cpu.parkWaits = false →
        t.cpu.trap = none ∧ readPc t = s.cpu.trapPc ∧ t.cpu.retired = s.cpu.retired + 1 ∧ t.mem = settledMem s ∧ t.cpu.frames.tail = s.cpu.frames.tail
          ∧ (t.cpu.frames.head?.map Frame.regs) = (s.cpu.frames.head?.map Frame.regs) ∧ t.cpu.parked = s.cpu.parked)
      ∧ (f.onIdle = false → s.cpu.trapPc.getLsbD 0 = true → debugOn s s.dbg.trapen = false → s.cpu.tvec.getLsbD 0 = true →
        t.cpu.trap.isSome = true ∧ t.cpu.trapCause = BitVec.ofNat 64 causeMisalign.toNat ∧ t.cpu.trapPc = f.pc ∧ t.cpu.trapVal = s.cpu.trapPc)
      ∧ (f.onIdle = true → s.cpu.parkWaits = false → t.cpu.trap = none ∧ t.cpu.frames = s.cpu.frames)
      ∧ (f.onIdle = false → s.cpu.trapPc.getLsbD 0 = false → s.cpu.frames ≠ [] → s.cpu.parkWaits = true → s.cpu.parked = none → s.cpu.trapWaits = false →
        t.cpu.trap = none ∧ t.cpu.parked = some s.cpu.trapPc ∧ t.cpu.trapCause = BitVec.ofNat 64 causeParked.toNat ∧ t.cpu.parkWaits = false)

/-- CSRR writes the register's value (R95), and CSRW writes X(ra) to it; a value that the register refuses traps ILLEGAL
and changes nothing. The access checks in their order (R22, R95): a number that is not assigned traps ILLEGAL; in
user mode a register open to the supervisor alone traps PRIV; a write of a register without a writable field
traps ILLEGAL. -/
def Obligations.ControlRegisterAccess : Prop :=
  (∀ (s : State) (d a : Reg) (n : BitVec 12), s.own.turn = .core →
      Writes s (.csrr d n) d (csrRead s n.toNat) 4
        ∧ (csrRefused s n.toNat (readX s a) = false → Completes s (.csrw a n) (goesOn (csrWrite s n.toNat (readX s a)) 4))
        ∧ (csrRefused s n.toNat (readX s a) = true → Completes s (.csrw a n) (takeTrap s causeIllegal (BitVec.ofNat 64 (encode (.csrw a n))))))
    ∧ (∀ (s : State) (d a : Reg) (n : BitVec 12),
      (csrAssigned n.toNat = false → csrCheck s (.csrr d n) = .raise causeIllegal (BitVec.ofNat 64 (encode (.csrr d n)))
          ∧ csrCheck s (.csrw a n) = .raise causeIllegal (BitVec.ofNat 64 (encode (.csrw a n))))
        ∧ (isUser s = true → (∀ k ∈ [0x020, 0x021, 0x022, 0x042, 0x043, 0x048, 0x050, 0x051, 0x100], csrCheck s (.csrr d k) = .raise causePriv (k.zeroExtend 64)
            ∧ csrCheck s (.csrw a k) = .raise causePriv (k.zeroExtend 64)) ∧ csrCheck s (.csrw a 0x04E) = .raise causePriv 0x04E)
        ∧ (isUser s = false → bit s.cpu.partid 46 = false → ∀ k ∈ [0x000, 0x001, 0x002, 0x003, 0x008, 0x010, 0x011, 0x012, 0x030, 0x053, 0x054, 0x055],
            csrCheck s (.csrr d k) = .pass ∧ csrCheck s (.csrw a k) = .raise causeIllegal (BitVec.ofNat 64 (encode (.csrw a k)))))

/-- What CSRR reads (R28 to R32, R142, R149, R345): the mode and the trap bit in STATUS, the threshold and level of the
running frame, 0x80 on an idle core, the claim depth, the flags, TAGS, the clocks and counts, and the trap
registers. What CSRW leaves (R7, R31): the writable fields take the value, the others keep theirs, a reserved
rounding mode leaves FPCTL.RM, and no other control register changes; of STASHCFG, whose write moves the stash
(R203), nothing is said here. -/
def Obligations.ControlRegisterFields : Prop :=
  (∀ s : State, s.own.turn = .core →
      (csrRead s 0x000).toNat % 4 = (mode s).toNat ∧ (csrRead s 0x000).getLsbD 11 = s.cpu.trap.isSome
        ∧ (s.cpu.frames = [] → csrRead s 0x001 = 0x80 ∧ csrRead s 0x002 = 0x80)
        ∧ (∀ f fs, s.cpu.frames = f :: fs → csrRead s 0x001 = BitVec.ofNat 64 f.thr ∧ csrRead s 0x002 = BitVec.ofNat 64 f.level
            ∧ csrRead s 0x041 = f.msgInfo ∧ csrRead s 0x04F = f.taskId)
        ∧ csrRead s 0x003 = BitVec.ofNat 64 s.cpu.claims.length ∧ csrRead s 0x004 = s.cpu.fpctl.get (level s) ∧ csrRead s 0x008 = s.cpu.tags
        ∧ csrRead s 0x010 = (if s.cpu.synced then s.cpu.time else 0) ∧ csrRead s 0x011 = s.cpu.cyc ∧ csrRead s 0x012 = s.cpu.retired
        ∧ csrRead s 0x020 = s.cpu.trapCause ∧ csrRead s 0x021 = s.cpu.trapPc ∧ csrRead s 0x022 = s.cpu.trapVal
        ∧ csrRead s 0x030 = s.cpu.coreId.zeroExtend 64 ∧ csrRead s 0x048 = s.cpu.xroot ∧ csrRead s 0x050 = s.cpu.tvec ∧ csrRead s 0x051 = s.cpu.tscr)
    ∧ (∀ (s : State) (v : Word), s.own.turn = .core →
      csrRead (csrWrite s 0x020 v) 0x020 = v &&& 0xFF ∧ csrRead (csrWrite s 0x021 v) 0x021 = v ∧ csrRead (csrWrite s 0x022 v) 0x022 = v
        ∧ csrRead (csrWrite s 0x050 v) 0x050 = v &&& 0xFFFFFFFFFFF9 ∧ csrRead (csrWrite s 0x051 v) 0x051 = v
        ∧ csrRead (csrWrite s 0x048 v) 0x048 = v &&& 0xFFFFFFF0001
        ∧ csrRead (csrWrite s 0x004 v) 0x004 = (let old := csrRead s 0x004
            let m : Word := if v.toNat % 8 < 5 then 0x3E7 else 0x3E0
            (old &&& ~~~ m) ||| (v &&& m))
        ∧ (∀ n, n < 8 → csrRead (csrWrite s (0x78 + n) v) (0x78 + n) = v)
        ∧ (∀ n, n < 64 → csrRead (csrWrite s (0x100 + n) v) (0x100 + n) = v &&& 0x9F)
        ∧ (∀ n k, csrAssigned n = true → csrAssigned k = true → n ≠ k → n ≠ 0x047 → csrRead (csrWrite s n v) k = csrRead s k)
        ∧ ∀ n, n ≠ 0x047 → (csrWrite s n v).mem = s.mem ∧ window (csrWrite s n v) = window s)

/-! ## Tasks: messages, claims, counters, barriers, dispatch -/

/-- SEND and SPAWN (R163, R164): with room in q3 and an image that passes the checks of R160, the core publishes, and
the image enters q3 with its traffic class and with the sender's time and core id in header word 1; SPAWN gives
0. A spawn to the own core with no free slot comes back at once with BOUNCE set, and gives 1. An image at a bad
address traps MSGADDR, and a word that names no target of the partition traps TARGET. -/
def Obligations.MessageInstructions : Prop :=
  ∀ (s : State) (d a b : Reg) (t : BitVec 2), s.own.turn = .core → q3Used s < 8 →
    let at_ := readX s b
    let img := getLocals s (ownKey s at_.toNat) 64
    let m : Message := { hdr0 := dword img 0, hdr1 := BitVec.ofNat 64 (s.cpu.time.toNat % 2 ^ 32 * 2 ^ 32 + s.cpu.coreId.toNat), body := (messageOf img).body }
    let target := coreOf (readX s a)
    let back : Message := { m with hdr0 := m.hdr0 ||| BitVec.ofNat 64 (2 ^ 54) }
    (ImageAccepted s at_ 0xFFC0000000000000 → validTarget s (readX s a) = true →
        Completes s (.send a b t) (goesOn (withOutbound (publish s) (.message target { m with hdr0 := m.hdr0 ||| BitVec.ofNat 64 (t.toNat * 2 ^ 56) } false)) 4))
      ∧ (ImageAccepted s at_ 0xFFE0000000000000 → validTarget s (readX s a) = true →
        ((target ≠ s.cpu.coreId ∨ freeGeneral s ≠ 0) → Completes s (.spawn d a b) (goesOn (writeX (withOutbound (publish s) (.message target m true)) d 0) 4))
          ∧ (target = s.cpu.coreId → freeGeneral s = 0 → Completes s (.spawn d a b) (goesOn (writeX (placeBounce (publish s) back) d 1) 4)))
      ∧ (at_.toNat % 64 ≠ 0 ∨ 0xFFFC0 < at_.toNat → Completes s (.send a b t) (takeTrap s causeMsgaddr at_) ∧ Completes s (.spawn d a b) (takeTrap s causeMsgaddr at_))
      ∧ (validTarget s (readX s a) = false → (ImageAccepted s at_ 0xFFC0000000000000 → Completes s (.send a b t) (takeTrap s causeTarget (readX s a)))
        ∧ (ImageAccepted s at_ 0xFFE0000000000000 → Completes s (.spawn d a b) (takeTrap s causeTarget (readX s a))))

/-- TEND ends the running task (R166): with no claim left open the frame is gone and the one below, if any, is the
running one; claims and barriers stay, and the task counts as retired. An open claim traps CLAIMERR with reason
5, and TEND in a trap frame traps ILLEGAL. The 16-bit form does the same. CLAIM and UNCLAIM (R167, R168): a claim
pushes THR and raises it to the ceiling, an unclaim puts the pushed value back; each error traps CLAIMERR with
its reason, in the order of the rule. -/
def Obligations.TaskEndAndClaims : Prop :=
  (∀ (s : State) (i : Instr) (f : Frame) (fs : List Frame), s.own.turn = .core → i = .tend ∨ i = .cTend → s.cpu.frames = f :: fs →
      (s.cpu.trap = none → s.cpu.claims.length ≤ f.claimBase →
          ∃ t, Completes s i t ∧ t.cpu.frames = fs ∧ t.cpu.claims = s.cpu.claims ∧ t.cpu.bar = s.cpu.bar ∧ t.cpu.retired = s.cpu.retired + 1
            ∧ t.cpu.trap = none ∧ (switchPending s = false → t.cpu.saving = s.cpu.saving))
        ∧ (s.cpu.trap = none → f.claimBase < s.cpu.claims.length → Completes s i (takeTrap s causeClaimerr (reasoned 5 (BitVec.ofNat 64 s.cpu.claims.length))))
        ∧ (s.cpu.trap.isSome = true → Completes s i (takeTrap s causeIllegal (BitVec.ofNat 64 (encode i)))))
    ∧ (∀ (s : State) (a : Reg) (f : Frame) (fs : List Frame), s.own.turn = .core → s.cpu.trap = none → s.cpu.frames = f :: fs →
      let n := readX s a
      let c := s.cpu.ceil.get n.toNat
      (n.toNat < 64 → c.getLsbD 7 = true → f.level ≤ c.toNat % 32 → s.cpu.claims.length < 16 →
          Completes s (.claim a) (goesOn { s with cpu := { s.cpu with claims := (f.thr, n.toNat) :: s.cpu.claims, frames := { f with thr := max f.thr (c.toNat % 32) } :: fs } } 4))
        ∧ (64 ≤ n.toNat → Completes s (.claim a) (takeTrap s causeClaimerr (reasoned 6 n)))
        ∧ (n.toNat < 64 → c.getLsbD 7 = false → Completes s (.claim a) (takeTrap s causeClaimerr (reasoned 1 n)))
        ∧ (n.toNat < 64 → c.getLsbD 7 = true → c.toNat % 32 < f.level → Completes s (.claim a) (takeTrap s causeClaimerr (reasoned 2 n)))
        ∧ (n.toNat < 64 → c.getLsbD 7 = true → f.level ≤ c.toNat % 32 → s.cpu.claims.length = 16 → Completes s (.claim a) (takeTrap s causeClaimerr (reasoned 3 n)))
        ∧ (∀ old k rest, s.cpu.claims = (old, k) :: rest → f.claimBase ≤ rest.length →
          Completes s .unclaim (goesOn { s with cpu := { s.cpu with claims := rest, frames := { f with thr := old } :: fs } } 4))
        ∧ (s.cpu.claims.length ≤ f.claimBase → Completes s .unclaim (takeTrap s causeClaimerr (reasoned 4 0xFF))))

/-- Dependence counters and tag arms (R151, R152, R169 to R171). DCSET writes the counter and the state bits of its
descriptor; a count of 0 releases at once. DCDEC takes one from a counter of the core, or sends a decrement; the
decrement of an active counter lowers it by one, and the last one clears ACTIVE and appends the release to the run
list of the descriptor's level. TAGARM fills the lowest free slot, which fires by the end of the instruction when TAGS
already meets it, or cancels the slots of a counter. That a count of 0 records SUP by the mode is the model's reading
(log entry 23); that TAGARM takes the lowest free slot is its choice (log entry 23), since R171 says only that a free
one is filled. -/
def Obligations.CountersAndArms : Prop :=
  ∀ (s : State) (a b : Reg), s.own.turn = .core → pageOfCounters s ≠ 0 →
    (∀ n c w0 w1, n = (readX s a).toNat → c = (readX s b).toNat → w0 = descriptor s n 0 → w1 = descriptor s n 1 →
        n < 4096 → c < 65536 → w0.toNat / 2 ^ 53 % 2 ^ 9 = 0 → w0.toNat / 2 ^ 48 % 32 < 24 → w1.toNat / 2 ^ 20 % 2 ^ 28 = 0 → w1.toNat % 8 = 0 →
        (w0.toNat / 2 ^ 48 % 32 < 20 ∨ isUser s = false) →
        let v0 := BitVec.ofNat 64 (w0.toNat % 2 ^ 62 + (if isUser s then 0 else 2 ^ 62) + (if c = 0 then 0 else 2 ^ 63))
        let u := putCounter (putDescriptor (putDescriptor s n 0 v0) n 1 (BitVec.ofNat 64 (w1.toNat % 2 ^ 48))) n c
        Completes s (.dcset a b) (goesOn (if c = 0 then releaseCounter u n 0 else u) 4)
          ∧ counter u n = c ∧ descriptor u n 0 = v0 ∧ descriptor u n 1 = BitVec.ofNat 64 (w1.toNat % 2 ^ 48))
      ∧ (let x := (readX s a).toNat
        (x / 2 ^ 12 % 2 ^ 18 = 0 → x / 2 ^ 30 % 2 ^ 18 = 0 → Completes s (.dcdec a) (goesOn (decrement s (x % 4096) (BitVec.ofNat 16 (x / 2 ^ 48)) 0) 4))
          ∧ (x / 2 ^ 12 % 2 ^ 17 = 0 → x / 2 ^ 29 % 2 = 1 → q3Used s < 8 → validTarget s (BitVec.ofNat 64 (x / 2 ^ 30 % 2 ^ 18)) = true →
            Completes s (.dcdec a) (goesOn (withOutbound (publish s) (.decrement (BitVec.ofNat 18 (x / 2 ^ 30 % 2 ^ 18)) (BitVec.ofNat 12 (x % 4096)) (BitVec.ofNat 16 (x / 2 ^ 48)))) 4)))
      ∧ (∀ n st bytes, (descriptor s n 0).getLsbD 63 = true → n < 4096 →
        (2 ≤ counter s n → counter (decrement s n st bytes) n = counter s n - 1 ∧ (decrement s n st bytes).cpu = { s.cpu with stale := (decrement s n st bytes).cpu.stale })
          ∧ (counter s n = 1 → (descriptor (decrement s n st bytes) n 0).getLsbD 63 = false ∧ counter (decrement s n st bytes) n = 0
            ∧ (st = 0 → hdrLevel (descriptor s n 0) < 20 → inStash s (ownKey s ((descriptor s n 1).toNat % 2 ^ 20)) 40 = false →
              (decrement s n st bytes).cpu.queues.get (hdrLevel (descriptor s n 0)) = s.cpu.queues.get (hdrLevel (descriptor s n 0))
                ++ [.release (BitVec.ofNat 12 n) (BitVec.ofNat 16 ((descriptor s n 1).toNat / 2 ^ 48)) (BitVec.ofNat 32 bytes) s.cpu.time])))
      ∧ (∀ all, (readX s b).toNat / 2 ^ 12 = 0 → readX s a ≠ 0 →
        let i := if all then Instr.tagarmAll a b else .tagarmAny a b
        (∀ k, k < 8 → s.cpu.arms.get k = none → (∀ j, j < k → s.cpu.arms.get j ≠ none) →
          Completes s i (goesOn (fireArms { s with cpu := { s.cpu with arms := s.cpu.arms.set k (some { mask := readX s a, all := all, n := BitVec.ofNat 12 (readX s b).toNat }) } }) 4))
          ∧ ((∀ j, j < 8 → s.cpu.arms.get j ≠ none) → Completes s i (takeTrap s causeDcerr (reasoned 5 (BitVec.ofNat 64 ((readX s b).toNat % 4096))))))
      ∧ ((readX s b).toNat / 2 ^ 12 = 2 ^ 51 → Completes s (.tagarmAny a b) (goesOn (cancelArms s (BitVec.ofNat 12 (readX s b).toNat)) 4)
        ∧ Completes s (.tagarmAll a b) (goesOn (cancelArms s (BitVec.ofNat 12 (readX s b).toNat)) 4))

/-- The barrier instructions on a member of the network (R154, R174 to R176): BARI resets the register with a new EXPECT and
BARV marks the arrival, each with its operation on the way to the root; BARD and BARJ record a request once;
BARQ reads the register; a core that is no member traps BARERR with reason 1. The network (R155, R174, R177): an
arrival that the root takes is counted; the last one flips the barrier, with joins and drops applied to EXPECT;
the flip reaches the core's register, which has a new phase and no arrival; a BARI of another core resets it. -/
def Obligations.Barriers : Prop :=
  (∀ (s : State) (d a : Reg) (n : BitVec 5), s.own.turn = .core →
      let b := barrier s n
      let x := readX s a
      let sent (t : State) (o : BarrierOp) : State := { t with net := { t.net with out := t.net.out ++ [o] } }
      Writes s (.barq d n) d (BitVec.ofNat 64 (b.active.toNat * 2 ^ 62 + b.reg.toNat * 2 ^ 61 + b.arr.toNat * 2 ^ 60 + b.arm.toNat * 2 ^ 59 + b.pend.toNat * 2 ^ 57
          + b.succ.toNat * 2 ^ 44 + b.phase.toNat * 2 ^ 28 + b.expect.toNat * 2 ^ 16 + b.arrived.toNat * 2 ^ 4)) 4
        ∧ (s.cpu.member = true → 0 < x.toNat → x.toNat ≤ gangSize s →
          Completes s (.bari a n) (goesOn (sent (resetBarrier s n (BitVec.ofNat 12 x.toNat)) (.bari n (BitVec.ofNat 12 x.toNat))) 4)
            ∧ barrier (resetBarrier s n (BitVec.ofNat 12 x.toNat)) n
              = { b with active := true, reg := false, arr := false, arm := false, pend := 0, phase := 0, expect := BitVec.ofNat 12 x.toNat, arrived := 0 })
        ∧ (s.cpu.member = true → b.active = true → b.arr = false → x.toNat = b.expect.toNat →
          Completes s (.barv a n) (goesOn (sent (setBarrier (publish s) n { b with arr := true, reg := true }) (.arrive n b.expect b.epoch)) 4))
        ∧ (s.cpu.member = true → b.active = true → b.arr = false → pageOfCounters s ≠ 0 → x.toNat = b.expect.toNat + (x.toNat / 2 ^ 16 % 2 ^ 12) * 2 ^ 16 + 2 ^ 28 →
          Completes s (.barv a n) (goesOn (sent (setBarrier (publish s) n { b with arr := true, reg := true, arm := true, succ := BitVec.ofNat 12 (x.toNat / 2 ^ 16) }) (.arrive n b.expect b.epoch)) 4))
        ∧ (s.cpu.member = true → b.active = true →
          Completes s (.bard n) (goesOn (if b.reg = true ∧ b.pend ≠ 2 then sent (setBarrier s n { b with pend := 2 }) (.drop n b.epoch) else s) 4)
            ∧ Completes s (.barj n) (goesOn (if b.reg = false ∧ b.pend ≠ 1 then sent (setBarrier s n { b with pend := 1 }) (.join n b.epoch) else s) 4))
        ∧ (s.cpu.member = false → ∀ i ∈ [Instr.bari a n, .barv a n, .bard n, .barj n], Completes s i (takeTrap s causeBarerr (reasoned 1 0))))
    ∧ (∀ (s : State) (n : BitVec 5) (c : BitVec 12),
      let r := rootOf s n
      let e := (r.expect + r.joins + 4096 * r.drops - r.drops) % 4096
      let counts (t : State) (own : Bool) : Prop :=
        (r.arrived + 1 ≠ r.expect → rootOf t n = { r with arrived := r.arrived + 1, ownArrived := own || r.ownArrived } ∧ t.net.flips = s.net.flips)
          ∧ (r.arrived + 1 = r.expect → rootOf t n = { active := decide (e ≠ 0), expect := e, phase := r.phase + 1, epoch := r.epoch }
            ∧ t.net.flips = s.net.flips ++ [{ n := n, expect := BitVec.ofNat 12 e, joined := r.ownJoin, dropped := r.ownDrop, epoch := r.epoch }])
      (r.active = true → c.toNat = r.expect → ∃ t, exec (.barrierOperationAtRoot (.other (.arrive n c r.epoch))) s = .next t ∧ counts t false)
        ∧ (c.toNat ≠ r.expect → exec (.barrierOperationAtRoot (.other (.arrive n c r.epoch))) s = .next s)
        ∧ (∀ rest, s.net.out = .arrive n c r.epoch :: rest → isHeld s = false → r.active = true → c.toNat = r.expect →
          (r.ownArrived = false → ∃ t, exec (.barrierOperationAtRoot .own) s = .next t ∧ t.net.out = rest ∧ counts t true)
            ∧ (r.ownArrived = true → exec (.barrierOperationAtRoot .own) s = .next { s with net := { s.net with out := rest } }))
        ∧ (∀ f, s.net.flips.find? (fun g => decide (g.n = n)) = some f → s.cpu.member = true → bariPending s n = false → f.epoch = (barrier s n).epoch →
          ∃ t, exec (.barrierFlip n) s = .next t ∧ (barrier t n).phase = (barrier s n).phase + 1 ∧ (barrier t n).expect = f.expect ∧ (barrier t n).arr = false
            ∧ (barrier t n).arm = false ∧ (barrier t n).active = decide (f.expect ≠ 0)
            ∧ ((barrier s n).pend = 1 → f.joined = true → (barrier t n).pend = 0 ∧ (barrier t n).reg = true)
            ∧ ((barrier s n).pend = 2 → f.dropped = true → (barrier t n).pend = 0 ∧ (barrier t n).reg = false)
            ∧ (¬((barrier s n).pend = 1 ∧ f.joined = true) → ¬((barrier s n).pend = 2 ∧ f.dropped = true) →
              (barrier t n).pend = (barrier s n).pend ∧ (barrier t n).reg = (barrier s n).reg))
        ∧ (∀ c k, s.net.baris.find? (fun b => decide (b.1 = n) && decide (b.2.1 = c)) = some (n, c, k) → s.cpu.member = true → bariPending s n = false → (barrier s n).epoch ≤ k →
          ∃ t, exec (.bariReachesCore n c) s = .next t ∧ (barrier t n).active = true ∧ (barrier t n).expect = c ∧ (barrier t n).phase = 0 ∧ (barrier t n).reg = false
            ∧ (barrier t n).arr = false ∧ (barrier t n).epoch = k))

/-- Dispatch and arrivals (R140 to R144, R151, R268). A level whose queue has the highest waiting entry begins a frame
when its number is above the threshold and nothing holds the core: the frame starts at the entry's handler with the
entry's level, thresholds and a cleared FPCTL, and its entry leaves the queue. A message of a resident partition takes
a slot; a decrement, or a monitor's, lowers its counter. A stalled instruction may begin once its queue has space.
STASHCFG takes a legal value. That the event which says so begins it in the model's own field `stalled` is log entry
2, and that another core's STASHCFG takes a value without the overlap check, since that core is not in the state, log
entry 3. -/
def Obligations.DispatchAndArrivals : Prop :=
  ∀ s : State,
    (∀ (p : Nat) (e : Entry) (h : Word) (u : State), dispatchLevel s = some p → queueHead s p = some e → (taskOf s e).handler % 8 = 0 →
        fetchHeader s (decide (p < 20)) (((taskOf s e).handler + 2 ^ 64 - 8) % 2 ^ 64) = .ok u h → headerValid h = true → h.toNat / 2 ^ 8 % 32 ≤ p →
        ∃ t f, exec .dispatch s = .next t ∧ t.cpu.frames.head? = some f ∧ f.level = p ∧ f.thr = p ∧ f.pc = BitVec.ofNat 64 (taskOf s e).handler
          ∧ f.claimBase = s.cpu.claims.length ∧ f.wcode.toNat = h.toNat % 4 ∧ f.vec = h.getLsbD 2 ∧ f.mat = h.getLsbD 3 ∧ t.cpu.fpctl.get p = 0
          ∧ f.taskId = (taskOf s e).payload.getD 0 0 ∧ (s.cpu.port = [] → s.cpu.lateRing = none → t.cpu.queues.get p = (s.cpu.queues.get p).erase e))
      ∧ (dispatchLevel s = none → exec .dispatch s = .next s)
      ∧ (∀ m part, s.cfe.bootState ≠ 2 → s.cpu.poweredOff = false → s.cpu.lateRing = none → isResident s part = true → m.hdr0.toNat / 2 ^ 48 % 32 ≤ 23 → freeGeneral s ≠ 0 → m.hdr0.toNat / 2 ^ 53 % 8 = 0 → peatMode s = 0 →
        ∃ t, exec (.msg (.other m false part)) s = .next t
          ∧ t.cpu.queues = s.cpu.queues.set (hdrLevel m.hdr0) (s.cpu.queues.get (hdrLevel m.hdr0) ++ [.message m false s.cpu.time]) ∧ t.mem = s.mem ∧ t.cpu.frames = s.cpu.frames)
      ∧ (∀ d rest, s.cpu.q3 = .decrement s.cpu.coreId d 0 :: rest → isHeld s = false → s.cfe.bootState ≠ 2 → switchPending s = false → s.cpu.away = false → s.cpu.poweredOff = false → s.cpu.lateRing = none →
        exec (.msg .own) s = .next (decrement { s with cpu := { s.cpu with q3 := rest } } d.toNat 0 0))
      ∧ (∀ w, s.cpu.port = [w] → s.cpu.lateRing = none → hdrLevel w.m.hdr0 ≤ 23 → isFlagged w.m.hdr0 = false → peatMode s = 0 → 0 < freeGeneral s →
        exec .inboxWriteWaiting s = .next (appendEntry { s with cpu := { s.cpu with port := [] } } (hdrLevel w.m.hdr0) (.message w.m false s.cpu.time)))
      ∧ (∀ d : Decrement, s.cfe.bootState ≠ 2 → s.cpu.poweredOff = false → isResident s d.part = true →
        (s.cpu.lateRing = none → exec (.rdec d) s = .next (decrement s d.n.toNat d.status 0))
          ∧ (s.cpu.lateRing.isSome = true → exec (.rdec d) s = .next (holdLate s d.part (lateDecrement d.n d.status))))
      ∧ (∀ f, s.mem.firings = [f] → f.core = s.cpu.coreId → isHome s f.line = true → mayFire s f = true → s.cpu.poweredOff = false → isResident s f.part = true → s.cpu.lateRing = none →
        let d : MonitorDecrement := { line := f.line, word := f.word, n := f.n, part := f.part }
        exec (.mdec d f.status) s = .next (applyMonitor { s with mem := { s.mem with firings := [] } } d f.status))
      ∧ (∀ q, let u := if q = 3 then { s with cpu := { s.cpu with q3Out := s.cpu.q3Out.drop 1 } } else s
        queueHasSpace u q = true → exec (.queueWriteResume q) s = .next { u with own := { u.own with stalled := false } })
      ∧ (∀ c v, c.toNat = coreIndex s.cpu.coreId → csrRefused s 0x047 v = false →
        ∃ t, exec (.stashcfgWrite { core := c, value := v }) s = .next t ∧ field t.cpu.stashcfg 0 8 = field v 0 8 ∧ t.cpu.frames = s.cpu.frames)
      ∧ (∀ c v, c.toNat = coreIndex s.cpu.coreId → csrRefused s 0x047 v = true → exec (.stashcfgWrite { core := c, value := v }) s = .next s)
      ∧ (∀ c v, c.toNat ≠ coreIndex s.cpu.coreId → v.toNat % 16 ≤ 8 → v.toNat / 16 % 16 + v.toNat % 16 ≤ 16 → (v.toNat % 16 = 0 ∨ v.toNat / 16 % 16 ≠ 0) →
        ∃ t, exec (.stashcfgWrite { core := c, value := v }) s = .next t ∧ (t.mem.stashcfgs.get c.toNat).toNat = v.toNat % 256 ∧ t.cpu = s.cpu)

/-! ## Atomics, fences, monitors, and the memory system -/

/-- ATOMICS at a quiet home line of the device (R242, R251 to R258): the instruction completes and its request is on its
way to the home slice; once that has performed it, memory holds the new value of the operation and the
destination the old one, sign-extended from 4 bytes; with rd = x0 nothing is written. Every form traps ADDR,
ACCESS and MISALIGN as R251 says. That the request waits at its slice, with memory as it was, until a later step
performs it is the model's reading (log entries 17 and 21). -/
def Obligations.AtomicInstructions : Prop :=
  ∀ (s u : State) (d a b : Reg) (o : BitVec 2) (z : BitVec 1) (p : Piece) (l : Leaf), s.own.turn = .core → Running s → headResident s →
    let n := if z = 0 then 4 else 8
    let x := readX s a
    let y := (readX s b).toNat % 2 ^ (8 * n)
    let e := (readX s d).toNat % 2 ^ (8 * n)
    let home (t : State) (n : Nat) := homeBytes t (leafKey l) p.key n
    let old := ofBytes (home u n)
    let signed (v : Nat) : Int := if v < 2 ^ (8 * n - 1) then v else (v : Int) - 2 ^ (8 * n)
    (atomPiece s x n .both = .ok u p → p.leaf = some l → QuietHome u p → ∀ i v,
        (i, v) ∈ [(Instr.amoadd d a b o z, (old + y) % 2 ^ (8 * n)), (.amoand d a b o z, old &&& y), (.amoor d a b o z, old ||| y), (.amoxor d a b o z, old ^^^ y),
          (.amomin d a b o z, if signed y < signed old then y else old), (.amomax d a b o z, if signed old < signed y then y else old),
          (.amominu d a b o z, min old y), (.amomaxu d a b o z, max old y), (.amoswp d a b o z, y), (.cas d a b o z, if old = e then y else old)] →
        ∃ t r id, Completes s i t ∧ t.mem.kept = [.atomic r (some id)] ∧ window t = window s ∧ home t n = home u n
          ∧ home (retryKept (.atomic r (some id)) t) n = toBytes n v
          ∧ readX (retryKept (.atomic r (some id)) t) d = (if d = 0 then 0 else if n = 4 then sext 32 old else BitVec.ofNat 64 old))
      ∧ (atomPiece s x 16 .both = .ok u p → p.leaf = some l → QuietHome u p →
        let old2 := ofBytes (home u 16)
        ∃ t r id, Completes s (.cas2 d a b o) t ∧ t.mem.kept = [.atomic r (some id)] ∧ window t = window s
          ∧ let w := retryKept (.atomic r (some id)) t
          home w 16 = (if old2 = (readX s d).toNat + 2 ^ 64 * (readX s (d + 1)).toNat then toBytes 8 (readX s b).toNat ++ toBytes 8 (readX s (b + 1)).toNat else home u 16)
            ∧ (d ≠ 0 → readX w d = BitVec.ofNat 64 old2 ∧ readX w (d + 1) = BitVec.ofNat 64 (old2 / 2 ^ 64)) ∧ (d = 0 → window w = window s))
      ∧ (atomPiece s x n .write = .ok u p → p.leaf = some l → QuietHome u p → ∀ h, ∃ t r id, Completes s (.redadd a b h z) t ∧ t.mem.kept = [.atomic r (some id)]
        ∧ home (retryKept (.atomic r (some id)) t) n = toBytes n ((old + y) % 2 ^ (8 * n)) ∧ window (retryKept (.atomic r (some id)) t) = window s)
      ∧ (∀ i ∈ [Instr.amoadd d a b o z, .amoand d a b o z, .amoor d a b o z, .amoxor d a b o z, .amomin d a b o z, .amomax d a b o z, .amominu d a b o z,
          .amomaxu d a b o z, .amoswp d a b o z, .cas d a b o z, .redadd a b 0 z],
        (2 ^ 55 < x.toNat + n → Completes s i (takeTrap s causeAddr x))
          ∧ (x.toNat < 2 ^ 32 → Completes s i (takeTrap s causeAccess x))
          ∧ (2 ^ 32 ≤ x.toNat → x.toNat + n ≤ 2 ^ 55 → x.toNat % n ≠ 0 → Completes s i (takeTrap s causeMisalign x)))
      ∧ (2 ^ 55 < x.toNat + 16 → Completes s (.cas2 d a b o) (takeTrap s causeAddr x))
      ∧ (x.toNat < 2 ^ 32 → Completes s (.cas2 d a b o) (takeTrap s causeAccess x))
      ∧ (2 ^ 32 ≤ x.toNat → x.toNat + 16 ≤ 2 ^ 55 → x.toNat % 16 ≠ 0 → Completes s (.cas2 d a b o) (takeTrap s causeMisalign x))

/-- LDACQ and STREL at a quiet home line (R226, R256, R257): the acquire load reads the home value, sign-extended,
and changes no memory; the release store, with room for the line in its slice and no copy of it elsewhere that
would have to be marked, puts its value into the home line. -/
def Obligations.AcquireAndRelease : Prop :=
  ∀ (s u : State) (d a b : Reg) (z : BitVec 2) (p : Piece) (l : Leaf), s.own.turn = .core → Running s →
    let n := 2 ^ z.toNat
    (atomPiece s (readX s a) n .read = .ok u p → p.leaf = some l → QuietHome u p →
        ∃ t, Completes s (.ldacq d a z) t ∧ (∀ k, getLocal t k = getLocal u k) ∧ (∀ key pa, homeByte t key pa = homeByte u key pa) ∧ t.mem.grants = []
          ∧ readX t d = (if d = 0 then 0 else sext (8 * n) (ofBytes (homeBytes u (leafKey l) p.key n))))
      ∧ (atomPiece s (readX s a) n .write = .ok u p → p.leaf = some l → QuietHome u p → hasRoom u (pieceLine p) →
        (∀ h ∈ holdersOf u (pieceLine p).line, keepsOwn u h = true) →
        ∃ t, Completes s (.strel a b z) t ∧ homeBytes t (leafKey l) p.key n = toBytes n (readX s b).toNat ∧ window t = window s ∧ t.mem.grants = [])

/-- Fences, the stash controls and the monitors (R244 to R246, R262 to R269). A full or release fence publishes every
store of the core, where none has to wait for its turn at its home slice; a full one makes later accesses wait for the
core's atomics and for acknowledgements within its scope, those of every home slice among them, an acquire for the
atomics that return a value; a FENCEX orders the class P before Q. A malformed scope traps SCOPE. SFLUSH of all makes
every stash line clean with its written words at home, SINV of all empties the stash, SPF changes no register; a range
past the end of the address space traps ADDR, and a range of length 0 does nothing. MONARM takes the lowest free entry
or answers FULL, and MONDIS sends a removal. The marks by which later accesses wait (`fences`, `holds`) are the
model's own (log entry 20); that MONARM takes the lowest free entry is its choice (log entry 22). -/
def Obligations.FencesAndMonitors : Prop :=
  ∀ (s u : State) (d a b : Reg) (c : BitVec 2) (k q : BitVec 5) (p : Piece), s.own.turn = .core → Running s →
    let r := readSc s c.toNat
    let x := readX s a
    let len := readX s b
    let on := fun (n : Nat) (deep : Bool) => ({ cls := n, first := s.cpu.nextId, scope := r, deep := deep } : Fence)
    let free := s.mem.kept = [] ∧ ∀ g ∈ s.mem.grants, g.logged = false ∧ atomicFirst s g.line = false
    (r.getLsbD 32 = true ∨ rectWellFormed r = true →
        (∃ t, Completes s (.fence c) t ∧ (free → t.mem.grants = []) ∧ window t = window s
            ∧ (∀ w ∈ t.cpu.acks, w.cls = 0 → awaitedIn r w = true → w.holds = true ∧ (w.op = none → on 0 true ∈ w.fences))
            ∧ ∀ w ∈ t.cpu.inFlight, w.cls = 0 → on 0 true ∈ w.fences ∧ on 5 true ∈ w.fences)
          ∧ (∃ t, Completes s (.fenceAcq c) t ∧ t.mem = settledMem s ∧ window t = window s ∧ t.cpu.inFlight.length = s.cpu.inFlight.length
            ∧ ∀ w ∈ t.cpu.inFlight, w.cls = 0 → w.returning = true → on 0 false ∈ w.fences)
          ∧ (∃ t, Completes s (.fenceRel c) t ∧ (free → t.mem.grants = []) ∧ window t = window s
            ∧ (∀ w ∈ t.cpu.acks, w.cls = 0 → awaitedIn r w = true → w.holds = true) ∧ ∀ w ∈ t.cpu.inFlight, w.cls = 0 → on 5 true ∈ w.fences)
          ∧ (∃ t, Completes s (.fencex c k q) t ∧ (k = 0 → free → t.mem.grants = []) ∧ (k ≠ 0 → t.mem = settledMem s)
            ∧ (∀ w ∈ t.cpu.acks, w.cls = k.toNat → awaitedIn r w = true → w.op = none → on q.toNat true ∈ w.fences)
            ∧ ∀ w ∈ t.cpu.inFlight, w.cls = k.toNat → on q.toNat true ∈ w.fences))
      ∧ (r.getLsbD 32 = false → rectWellFormed r = false → ∀ i ∈ [Instr.fence c, .fenceAcq c, .fenceRel c, .fencex c k q], Completes s i (takeTrap s causeScope r))
      ∧ (len = 0 → ∀ i ∈ [Instr.sflush a b, .sinv a b, .spf a b], Completes s i (goesOn s 4))
      ∧ (2 ^ 55 < x.toNat + len.toNat → len ≠ 0 → Completes s (.spf a b) (takeTrap s causeAddr x)
        ∧ (len ≠ -1 → Completes s (.sflush a b) (takeTrap s causeAddr x) ∧ Completes s (.sinv a b) (takeTrap s causeAddr x)))
      ∧ (x.toNat + len.toNat ≤ 2 ^ 55 → ∃ t, Completes s (.spf a b) t ∧ window t = window s ∧ ∀ ln, (grantOf t ln).words = (grantOf s ln).words)
      ∧ (x.toNat + len.toNat ≤ 2 ^ 55 → ∃ t, Completes s (.sflush a b) t ∧ window t = window s ∧ t.mem.stash.map StashLine.line = s.mem.stash.map StashLine.line)
      ∧ (x.toNat + len.toNat ≤ 2 ^ 55 → hasStash s = true → len ≠ 0 → ∃ t, Completes s (.sinv a b) t ∧ window t = window s
        ∧ ∀ l ∈ s.mem.stash, lineInRange s s.own.draws x.toNat len.toNat l.line = true → stashLine t l.line = none)
      ∧ (len = -1 → ∃ t t', Completes s (.sflush a b) t ∧ Completes s (.sinv a b) t' ∧ (∀ l ∈ t.mem.stash, l.written = 0) ∧ t'.mem.stash = []
        ∧ ∀ l o, s.mem.stash = [l] → isHome s l.line = true → populated (l.line.line.toNat * 128) = true → o < 128 → l.written.getLsbD (o / 8) = true →
          homeByte t l.key (l.line.line.toNat * 128 + o) = l.data.get o ∧ homeByte t' l.key (l.line.line.toNat * 128 + o) = l.data.get o)
      ∧ (pageOfCounters s ≠ 0 → len.toNat < 4096 → atomPiece s x 8 .read = .ok u p → QuietHome u p →
        (∀ j, freeEntry u = some j → registrations u (pieceLine p).line < 1024 → ∃ t, Completes s (.monarm d a b) t ∧ readX t d = 0
            ∧ t.cpu.monitors.get j = some { line := pieceLine p, word := BitVec.ofNat 4 (p.key / 8), n := BitVec.ofNat 12 len.toNat }
            ∧ t.mem.monitors = u.mem.monitors ++ [{ core := s.cpu.coreId, part := partOf s, line := (pieceLine p).line, word := BitVec.ofNat 4 (p.key / 8), n := BitVec.ofNat 12 len.toNat }])
          ∧ ((freeEntry u = none ∨ 1024 ≤ registrations u (pieceLine p).line) → Completes s (.monarm d a b) (goesOn (writeX u d 1) 4)))
      ∧ (atomPlace s x 8 = .ok u p →
        Completes s (.mondis a) (goesOn { u with mem := { u.mem with removals := u.mem.removals ++ [(pieceLine p, BitVec.ofNat 4 (p.key / 8))] } } 4))

/-- What the memory system does between the core's instructions (R205, R210, R211, R213, R229, R232, R238, R242, R269,
R409): a buffered line drains, a holder is recorded, a line arrives, words go to another core or to the own one, a
write-back is merged, a copy is invalidated, an acknowledgement returns, another core's atomic is performed, a
combined group adds its sum, a reply reaches its register, a monitor is removed. That DATA of a page without copies is
held for one access is the model's reading (log entry 18), as are the requests that a home slice keeps (log entry
21). -/
def Obligations.MemoryEvents : Prop :=
  ∀ (s : State) (ln : LineId),
    let base := ln.line.toNat * 128
    (s.mem.buffer = [] → exec .storeBufferDrain s = .next s)
      ∧ (∀ b, s.mem.buffer = [b] → b.line = ln → isHome s ln = true → b.direct = true → populated base = true →
        ∃ t, exec .storeBufferDrain s = .next t ∧ t.mem.buffer = []
          ∧ ∀ o v, o < 128 → bufferedByte s ln o = some v → homeByte t b.key (base + o) = v)
      ∧ (∀ q : FillRequest, isHome s ln = true → isWatched s ln.line = false → q.holder ≠ ownStash s → isBehindOwn s ln q.holder = false →
        (hasRoom s ln → ∃ t, exec (.fill ln q) s = .next t ∧ t.mem.pmem = s.mem.pmem
            ∧ (asHolder s ln.line q.holder ∈ (dirOf t ln.line).sharers ∨ (dirOf t ln.line).overflow = true))
          ∧ (l2Reach s (homeDie ln.line) ln false = none → exec (.fill ln q) s = .next (keepFill s ln q)))
      ∧ (∀ (q : FillRequest) p, isBehindOwn s ln q.holder = true → q.holder ≠ ownStash s → isHome s ln = false → peerLine s ln = some p → p.line = ln → p.key = q.key →
        ∃ t, exec (.fill ln q) s = .next t ∧ ∃ v ∈ t.mem.peers, v.line = ln ∧ q.holder ∈ v.sharers)
      ∧ (∀ (r : LineReply) (u : LineUse) (k : BitVec 6), u ≠ .copy → s.mem.requested = [{ line := ln, want := .line u, key := k, release := false }] → (grantOf s ln).sent = [] →
        ∃ t p, exec (.data ln r) s = .next t ∧ t.mem.requested = [] ∧ heldLine t ln u = some p ∧ p.key = k ∧ p.poison = r.poison
          ∧ ∀ o, o < 128 → p.data.get o = r.bytes.getD o 0)
      ∧ (∀ q, isHome s ln = true → q.core ≠ s.cpu.coreId → refusedBy s ln.line q = none → slotsFull s ln.line q = false → hasRoom s ln →
        ∃ t, exec (.notice ln q) s = .next t ∧ ∃ w ∈ (dirOf t ln.line).writers, w.core = q.core ∧ q.words &&& ~~~w.words = 0)
      ∧ (∀ ws, (∃ q ∈ s.mem.requested, q.line = ln ∧ q.want = .grant) → ∃ t, exec (.grant ln (.granted ws)) s = .next t ∧ (grantOf t ln).words = (grantOf s ln).words ||| ws)
      ∧ (∀ (w : WriteBack) (k : Nat) (v : Word), isHome s ln = true → populated base = true → w.core ≠ s.cpu.coreId → w.logged = false → k < 16 → w.words = BitVec.ofNat 16 (2 ^ k) → w.data = [v] →
        ∃ t, exec (.wb ln w) s = .next t
          ∧ (w.kind = .writeBack ∨ w.kind = .publication ∨ (w.kind = .engine ∧ w.words &&& heldWords s ln.line = 0) →
            homeDword t w.key (base + 8 * k) = v)
          ∧ (w.kind = .publication → ∀ x ∈ (dirOf t ln.line).writers, x.core ≠ w.core)
          ∧ (w.kind = .eviction → isBehindOwn s ln w.sharer = false → asHolder s ln.line w.sharer ∉ (dirOf t ln.line).sharers))
      ∧ ((isHome s ln = true → s.mem.invs.contains ln = true) →
        ∀ part, ∃ t, exec (.inv { line := ln, part := part }) s = .next t ∧ stashLine t ln = none ∧ ∀ p ∈ t.mem.peers, p.line ≠ ln)
      ∧ (∀ w ∈ s.cpu.acks, w.line = ln → ackWaits s ln w.src = false → (∀ v ∈ s.cpu.acks, v.line = ln → v.src = w.src → v = w) →
        s.eng.releases = [] → s.cfe.hostAcks = [] → s.mem.owed = [] → s.mem.firings = [] → (∀ l p r id, .remote l p r id ∉ s.mem.kept) →
        exec (.ack ln w.src) s = .next { s with cpu := { s.cpu with acks := s.cpu.acks.erase w } })
      ∧ (∀ (r : AtomRequest), r.pa.toNat / 128 = ln.line.toNat → mustKeep s r = false → keptAtomic s r = none → r.logged = false →
        homePoison s r.pa.toNat (atomSize r) = false → r.pa.toNat % atomSize r = 0 → stashLine s (homeLine s ln.line) = none → (grantOf s (homeLine s ln.line)).words = 0 →
        ∀ v, atomNew r.op.toNat (atomSize r) (ofBytes (homeBytes s r.key r.pa.toNat (atomSize r))) (r.new.toNat % 2 ^ (8 * atomSize r)) (r.exp.toNat % 2 ^ (8 * atomSize r)) = some v →
          ∃ t, exec (.atom r) s = .next t ∧ homeBytes t r.key r.pa.toNat (atomSize r) = toBytes (atomSize r) v)
      ∧ (∀ r, mustKeep s r = true → keptAtomic s r = none → exec (.atom r) s = .next { s with mem := { s.mem with kept := s.mem.kept ++ [.atomic r none] } })
      ∧ (∀ (x y : AtomRequest), let n := 2 ^ x.size.toNat
        x.pa.toNat / 128 = ln.line.toNat → x.pa.toNat % n = 0 → y.pa = x.pa → y.size = x.size → y.key = x.key → y.part = x.part → combinable x = true → combinable y = true →
        mustKeep s x = false → mustKeep s y = false → homePoison s x.pa.toNat n = false → stashLine s (homeLine s ln.line) = none → (grantOf s (homeLine s ln.line)).words = 0 →
          ∃ t, exec (.catom [x, y]) s = .next t
            ∧ homeBytes t x.key x.pa.toNat n = toBytes n ((ofBytes (homeBytes s x.key x.pa.toNat n) + x.new.toNat + y.new.toNat) % 2 ^ (8 * n)))
      ∧ (∀ (w : InFlight) (v : BitVec 128), s.cpu.inFlight = [w] → w.returning = true → w.level = frameTag s → w.size = 8 → Running s → headResident s → s.own.turn = .core →
        ∃ t, exec (.atomr { id := w.id, old := v, poisoned := false }) s = .next t ∧ t.cpu.inFlight = [] ∧ readX t w.rd = if w.rd = 0 then 0 else BitVec.ofNat 64 v.toNat)
      ∧ (∀ w rest, s.mem.removals = (ln, w) :: rest → ∃ t, exec .monitorRemoval s = .next t ∧ t.mem.removals = rest
        ∧ (∀ m ∈ t.mem.monitors, m ∈ s.mem.monitors ∧ (m.core = s.cpu.coreId → homeLine s m.line = ln → m.word ≠ w))
        ∧ t.mem.firings.length = s.mem.firings.length + (s.mem.monitors.length - t.mem.monitors.length))

/-! ## Vectors -/

/-- Lane arithmetic (R180 to R185): sums, differences and products of integer lanes wrap, VADDS and VSUBS saturate,
the smaller and larger are signed, and shift amounts are taken modulo the width; floating-point lanes give what the
scalar operations give, rounded by FPCTL.RM. -/
def Obligations.VectorArithmetic : Prop :=
  ∀ (s : State) (d a b : BitVec 4) (k e : BitVec 3),
    let w := laneWidth e
    let x := fun j => lane (readV s a.toNat) w j
    let y := fun j => lane (readV s b.toNat) w j
    let z := fun j => lane (readV s d.toNat) w j
    let sg := fun (v : Nat) => if v < 2 ^ (w - 1) then (v : Int) else (v : Int) - 2 ^ w
    let clamp := fun (v : Int) => (max (-2 ^ (w - 1)) (min (2 ^ (w - 1) - 1) v) % 2 ^ w).toNat
    let m := currentMode s
    (e.toNat < 4 →
        LanesWrite s (.vadd d a b k e) d k e (fun j => plain ((x j + y j) % 2 ^ w)) ∧ LanesWrite s (.vsub d a b k e) d k e (fun j => plain ((x j + 2 ^ w - y j) % 2 ^ w))
          ∧ LanesWrite s (.vmul d a b k e) d k e (fun j => plain (x j * y j % 2 ^ w))
          ∧ LanesWrite s (.vmin d a b k e) d k e (fun j => plain (if sg (x j) ≤ sg (y j) then x j else y j))
          ∧ LanesWrite s (.vmax d a b k e) d k e (fun j => plain (if sg (x j) ≤ sg (y j) then y j else x j))
          ∧ LanesWrite s (.vabs d a k e) d k e (fun j => plain (if sg (x j) < 0 then 2 ^ w - x j else x j))
          ∧ LanesWrite s (.vadds d a b k e) d k e (fun j => plain (clamp (sg (x j) + sg (y j))))
          ∧ LanesWrite s (.vsubs d a b k e) d k e (fun j => plain (clamp (sg (x j) - sg (y j))))
          ∧ LanesWrite s (.vshl d a b k e) d k e (fun j => plain (x j * 2 ^ (y j % w) % 2 ^ w))
          ∧ LanesWrite s (.vshr d a b k e) d k e (fun j => plain (x j / 2 ^ (y j % w)))
          ∧ LanesWrite s (.vsra d a b k e) d k e (fun j => plain ((sg (x j) / 2 ^ (y j % w) % 2 ^ w).toNat)))
      ∧ (∀ F, laneType e = .float F →
        LanesWrite s (.vadd d a b k e) d k e (fun j => F.add m (x j) (y j)) ∧ LanesWrite s (.vsub d a b k e) d k e (fun j => F.sub m (x j) (y j))
          ∧ LanesWrite s (.vmul d a b k e) d k e (fun j => F.mul m (x j) (y j)) ∧ LanesWrite s (.vdiv d a b k e) d k e (fun j => F.div m (x j) (y j))
          ∧ LanesWrite s (.vfma d a b k e) d k e (fun j => F.fma m (x j) (y j) (z j)) ∧ LanesWrite s (.vmin d a b k e) d k e (fun j => F.min (x j) (y j))
          ∧ LanesWrite s (.vmax d a b k e) d k e (fun j => F.max (x j) (y j)) ∧ LanesWrite s (.vabs d a k e) d k e (fun j => F.withSign (fun _ _ => false) (x j) (x j)))
      ∧ LanesWrite s (.vand d a b k e) d k e (fun j => plain (x j &&& y j)) ∧ LanesWrite s (.vor d a b k e) d k e (fun j => plain (x j ||| y j))
      ∧ LanesWrite s (.vxor d a b k e) d k e (fun j => plain (x j ^^^ y j))

/-- Compares, selection, masks and moves of lanes (R186 to R189). -/
def Obligations.VectorMasksAndMoves : Prop :=
  ∀ (s : State) (d a b : BitVec 4) (p q r k e : BitVec 3),
    let w := laneWidth e
    let x := fun j => lane (readV s a.toNat) w j
    let y := fun j => lane (readV s b.toNat) w j
    let sg := fun (v : Nat) => if v < 2 ^ (w - 1) then (v : Int) else (v : Int) - 2 ^ w
    (e.toNat < 4 →
        LanesCompare s (.vcmpeq p a b k e) p k e (fun j => (decide (x j = y j), 0)) ∧ LanesCompare s (.vcmplt p a b k e) p k e (fun j => (decide (sg (x j) < sg (y j)), 0))
          ∧ LanesCompare s (.vcmple p a b k e) p k e (fun j => (decide (sg (x j) ≤ sg (y j)), 0)) ∧ LanesCompare s (.vcmpltu p a b k e) p k e (fun j => (decide (x j < y j), 0))
          ∧ LanesWrite s (.vidx d k e) d k e (fun j => plain j))
      ∧ (∀ F, laneType e = .float F → LanesCompare s (.vcmpeq p a b k e) p k e (fun j => F.compare 0 (x j) (y j))
        ∧ LanesCompare s (.vcmplt p a b k e) p k e (fun j => F.compare 1 (x j) (y j)) ∧ LanesCompare s (.vcmple p a b k e) p k e (fun j => F.compare 2 (x j) (y j)))
      ∧ (∃ v, Completes s (.vsel d a b k e) (goesOn (writeV s d.toNat v) 4) ∧ ∀ j, j < laneCount e → lane v w j = if isActive s k j then x j else y j)
      ∧ Completes s (.vmand p q r) (goesOn (writeK s p.toNat (readK s q.toNat &&& readK s r.toNat)) 4)
      ∧ Completes s (.vmor p q r) (goesOn (writeK s p.toNat (readK s q.toNat ||| readK s r.toNat)) 4)
      ∧ Completes s (.vmxor p q r) (goesOn (writeK s p.toNat (readK s q.toNat ^^^ readK s r.toNat)) 4)
      ∧ Writes s (.vmpopc d q) (d.zeroExtend 5) (BitVec.ofNat 64 ((List.range 64).countP fun i => (readK s q.toNat).getLsbD i)) 4
      ∧ LanesWrite s (.vperm d a b k e) d k e (fun j => plain (x (y j % laneCount e)))
      ∧ LanesWrite s (.vbcast d a k e) d k e (fun _ => plain ((readX s (a.zeroExtend 5)).toNat % 2 ^ w))
      ∧ (let v := x ((readX s (b.zeroExtend 5)).toNat % laneCount e)
        Writes s (.vmovx d a b e) (d.zeroExtend 5) (if e.toNat < 4 then (BitVec.ofNat w v).signExtend 64 else BitVec.ofNat 64 v) 4)

/-- Conversions, reductions and generated lanes (R122, R123, R190 to R194). Without a conversion word VCVT rounds the
lanes that both types have by FPCTL.RM and clears the bits above them. With one it posts RSVD where a case of R192
holds; else its elements are lanes or those of a packed stream, on the side that NDST or NSRC names, each rounded
under the word's code, 101 by the hash of the generator at (COL0 + j, ROW), with NaN on overflow where NOVF asks
for it, and every bit above them is zero. A reduction is the tree of R122 over the active lanes: the result of two
halves is the operation on their results; integer sums, minima and maxima are those of the active lanes.
Every lane of VGEN takes its generator's value. -/
def Obligations.VectorConversionsAndReductions : Prop :=
  ∀ (s : State) (d a b : BitVec 4) (src g k e : BitVec 3), s.own.turn = .core →
    let w := laneWidth e
    let x := fun j => lane (readV s a.toNat) w j
    let sg := fun (v : Nat) => if v < 2 ^ (w - 1) then (v : Int) else (v : Int) - 2 ^ w
    let act := (List.range (laneCount e)).filter (isActive s k)
    (conversionOf (readE s 3) = none → ∃ v fl, Completes s (.vcvt d a src k e) (goesOn (writeV (raiseFlags s fl) d.toNat v) 4)
        ∧ ∀ j, j < laneCount e → lane v w j = if min (laneCount src) (laneCount e) ≤ j then 0
          else if isActive s k j then ((laneType e).round (currentMode s) false ((laneType src).decode (lane (readV s a.toNat) (laneWidth src) j))).bits % 2 ^ w
          else lane (readV s d.toNat) w j)
      ∧ (∀ c, conversionOf (readE s 3) = some c → conversionReserved s (readE s 3) c src e = true →
        Completes s (.vcvt d a src k e) (parkReserved s (BitVec.ofNat 64 (encode (.vcvt d a src k e)))))
      ∧ (∀ c t, conversionOf (readE s 3) = some c → conversionReserved s (readE s 3) c src e = false → (c.rm = 5 → genTrap s (readG s c.gen) [] = none) →
        (if c.ndst then codeType c.fmt else some (laneType e)) = some t →
        let n := if c.ndst then laneCount src else if c.nsrc then laneCount e else min (laneCount src) (laneCount e)
        let hash := fun j => genHash (resolveGen s (readG s c.gen)) (BitVec.ofNat 32 (c.col + j)) (BitVec.ofNat 32 c.row)
        let mode := fun j => if c.rm = 5 then .sr (hash j).toNat else if c.rm = 7 then currentMode s else modeOf c.rm
        let source := fun j => if c.nsrc then streamElement c.fmt (readV s a.toNat).toNat j
          else ((laneType src).decode (lane (readV s a.toNat) (laneWidth src) j), false, (laneType src).isSignalling (lane (readV s a.toNat) (laneWidth src) j))
        let result := fun j => t.round (mode j) c.novf (source j).1
        ∃ (v : BitVec 512) (fl : Flags), Completes s (.vcvt d a src k e) (goesOn (writeV (raiseFlags s fl) d.toNat v) 4)
          ∧ (∀ j, j < n → lane v t.width j = if isActive s k j then (result j).bits % 2 ^ t.width else lane (readV s d.toNat) t.width j)
          ∧ (∀ i, n * t.width ≤ i → v.getLsbD i = false)
          ∧ ∀ i, fl.getLsbD i = true ↔ ∃ j, j < n ∧ isActive s k j = true ∧ ((result j).flags.getLsbD i = true ∨ (i = 4 ∧ ((source j).2.1 = true ∨ (source j).2.2 = true))))
      ∧ (e.toNat < 4 → ∃ sum lo hi, Completes s (.vredadd d a k e) (goesOn (writeV (raiseFlags s 0) d.toNat (BitVec.ofNat 512 sum)) 4)
        ∧ Completes s (.vredmin d a k e) (goesOn (writeV (raiseFlags s 0) d.toNat (BitVec.ofNat 512 lo)) 4)
        ∧ Completes s (.vredmax d a k e) (goesOn (writeV (raiseFlags s 0) d.toNat (BitVec.ofNat 512 hi)) 4)
        ∧ sum = (act.map x).sum % 2 ^ w ∧ (act = [] → lo = 2 ^ (w - 1) - 1 ∧ hi = 2 ^ (w - 1))
        ∧ (act ≠ [] → (∃ j ∈ act, lo = x j) ∧ (∃ j ∈ act, hi = x j) ∧ ∀ j ∈ act, sg lo ≤ sg (x j) ∧ sg (x j) ≤ sg hi))
      ∧ (∀ F, laneType e = .float F →
        let leaves := (List.range (laneCount e)).map fun j => if isActive s k j then some (x j) else none
        let tree (op : Nat → Nat → Result) := reduceTree op (Nat.log2 (laneCount e)) leaves
        let done (r : Option Nat × Flags) (empty : Nat) := goesOn (writeV (raiseFlags s r.2) d.toNat (BitVec.ofNat 512 (r.1.getD empty))) 4
        Completes s (.vredadd d a k e) (done (tree (F.add (currentMode s))) 0)
          ∧ Completes s (.vredmin d a k e) (done (tree F.min) F.infCode) ∧ Completes s (.vredmax d a k e) (done (tree F.max) (F.signed true F.infCode)))
      ∧ (∀ op n l r, l.length = 2 ^ n → r.length = 2 ^ n →
        (reduceTree op (n + 1) (l ++ r)).1 = (joinNode op (reduceTree op n l).1 (reduceTree op n r).1).1)
      ∧ (let G := readG s g.toNat
        let q := readX s (b.zeroExtend 5)
        let pos := fun j => ((BitVec.ofNat 32 q.toNat + BitVec.ofNat 32 (if genKind G = 0x16 then j / 2 else j) : BitVec 32), BitVec.ofNat 32 (q.toNat / 2 ^ 32))
        genValid G = true → genTrap s G (act.map pos) = none → ¬ (genKind G = 0x15 ∧ e = 0) → ¬ (genKind G = 0x16 ∧ e.toNat < 4) →
          LanesWrite s (.vgen d g b k e) d k e (fun j =>
            drawnLane (laneType e) (currentMode s) (genKind G) (decide (j % 2 = 1)) (drawNow s (resolveGen s G) (pos j).1 (pos j).2)))

/-- Vector memory (R195 to R197) in the core's own local memory: each active lane loads from or stores to its own
address, contiguous, strided or indexed; stores go in lane order. Wherever the elements lie, the first lane in lane
order whose access raises a cause makes the instruction trap with it and with VFLANE naming the lane: nothing is
loaded, and no element is stored. -/
def Obligations.VectorMemory : Prop :=
  ∀ (s : State) (d a b : BitVec 4) (k e : BitVec 3), s.own.turn = .core →
    let n := laneWidth e / 8
    let base := readX s (a.zeroExtend 5)
    let act := (List.range (laneCount e)).filter (isActive s k)
    let near := fun j => base + BitVec.ofNat 64 (j * n)
    let step := fun j => base + BitVec.ofNat 64 j * readX s (b.zeroExtend 5)
    let index := fun j => base + (BitVec.ofNat (laneWidth e) (lane (readV s b.toNat) (laneWidth e) j)).signExtend 64
    let value := fun j => toBytes n (lane (readV s d.toNat) (laneWidth e) j)
    let loads (i : Instr) (at_ : Nat → Word) :=
      (isFenced s 0 = false → s.mem.shadows = [] → (∀ j ∈ act, OwnBytes s (at_ j) n) → LanesWrite s i d k e (fun j => plain (ofBytes (getLocals s (ownKey s (at_ j).toNat) n))))
        ∧ ∀ pre j post u t c v, act = pre ++ j :: post → LoadsPass n (pre.map at_) s u → load u (at_ j) n = .trap t c v → t.own.turn = .core →
          Completes s i (takeTrap { t with cpu := { t.cpu with vflane := BitVec.ofNat 64 j } } c v) ∧ ∀ q, readV t q = readV s q
    let stores (i : Instr) (at_ : Nat → Word) :=
      (isFenced s 0 = false → s.mem.buffer.length ≤ 16 → (∀ j ∈ act, OwnBytes s (at_ j) n ∧ 0x800 ≤ (at_ j).toNat) →
          ∃ t, Completes s i t ∧ window t = window s ∧ t.mem.pmem = s.mem.pmem
            ∧ ∀ q, getLocal t q = getLocal (act.foldl (fun u j => putLocal u (ownKey s (at_ j).toNat) (value j)) s) q)
        ∧ ∀ pre j post u t c v, isFenced s 0 = false → act = pre ++ j :: post → StoresPass (pre.map fun l => (at_ l, value l)) s u →
          store u (at_ j) (value j) = .trap t c v → t.own.turn = .core →
          Completes s i (takeTrap { t with cpu := { t.cpu with vflane := BitVec.ofNat 64 j } } c v) ∧ ∀ q, getLocal t q = getLocal s q
    loads (.vld d a k e) near ∧ loads (.vlds d a b k e) step ∧ loads (.vgath d a b k e) index
      ∧ stores (.vst d a k e) near ∧ stores (.vsts d a b k e) step ∧ stores (.vscat d a b k e) index

/-! ## Generators, tags, and the engines -/

/-- Generator registers and tags (R295 to R303, R321, R333, R334). GSET and GGET move 32 aligned bytes; GDRAW gives
the hash and the value of a valid register at a position, and posts RSVD for one that is not valid. TAGTST
masks TAGS, TAGFF finds its lowest bit, 64 for none, and TAGCLR clears bits. CSHP puts a shape that passes R280
into its slot and gives its data bytes, and traps SHAPE with the first reason that it meets. -/
def Obligations.GeneratorsAndTags : Prop :=
  ∀ (s : State) (d a : Reg) (g : BitVec 3), s.own.turn = .core →
    let x := readX s a
    let G := readG s g.toNat
    let p := (BitVec.ofNat 32 x.toNat, BitVec.ofNat 32 (x.toNat / 2 ^ 32))
    let img := getLocals s (ownKey s x.toNat) 64
    (x.toNat % 32 = 0 → (∀ t bs, load s x 32 = .ok t bs → Completes s (.gset a g) (goesOn (writeG t g.toNat (BitVec.ofNat 256 (ofBytes bs))) 4))
        ∧ ∀ t, store s x (toBytes 32 G.toNat) = .ok t () → Completes s (.gget a g) (goesOn t 4))
      ∧ (x.toNat % 32 ≠ 0 → Completes s (.gset a g) (takeTrap s causeMisalign x) ∧ Completes s (.gget a g) (takeTrap s causeMisalign x))
      ∧ (genValid G = true → genTrap s G [p] = none →
        Writes s (.gdraw d a g) d (BitVec.ofNat 64 ((genHash (resolveGen s G) p.1 p.2).toNat * 2 ^ 32 + (drawnWord (drawNow s (resolveGen s G) p.1 p.2)).toNat)) 4)
      ∧ (genValid G = false → Completes s (.gdraw d a g) (parkReserved s (BitVec.ofNat 64 (encode (.gdraw d a g)))))
      ∧ Writes s (.tagtst d a) d (s.cpu.tags &&& x) 4
      ∧ (∃ k, Writes s (.tagff d a) d (BitVec.ofNat 64 k) 4 ∧ k ≤ 64 ∧ (∀ j, j < k → (s.cpu.tags &&& x).getLsbD j = false) ∧ (k < 64 → (s.cpu.tags &&& x).getLsbD k = true))
      ∧ Completes s (.tagclr a) (goesOn { s with cpu := { s.cpu with tags := s.cpu.tags &&& ~~~x } } 4)
      ∧ (x.toNat % 64 = 0 → x.toNat ≤ 0xFFFC0 → inStash s (ownKey s x.toNat) 64 = false → localPoison s (ownKey s x.toNat) 64 = false → shapeReserved img = false →
        (shapeReason img = none → Completes s (.cshp d a) (goesOn (writeX { s with eng := { s.eng with shapes := s.eng.shapes.set ((dword img 0).toNat / 2 ^ 24 % 64) (some (shapeOf img)) } } d
            (BitVec.ofNat 64 ((shapeOf img).total * (shapeOf img).ebits / 8))) 4))
          ∧ ∀ r, shapeReason img = some r → Completes s (.cshp d a) (takeTrap s causeShape (reasoned r x)))

/-- Commands for the copy and matrix engines at issue (R281, R288 to R291, R323 to R331): with room in its queue and
operands that pass the checks, the command enters the queue with the completion fields, the operand words and the
seeds read now, takes the next number, and the pc moves on; a full queue makes the instruction wait where it
stands. -/
def Obligations.EngineIssue : Prop :=
  ∀ (s : State) (a b : Reg) (t src q : BitVec 2) (fin : Completion), s.own.turn = .core →
    let e2 := (readE s 2).toNat
    let e3 := (readE s 3).toNat
    let af := e2 / 2 ^ 21 % 32
    let bf := e2 / 2 ^ 16 % 32
    let rec_ := e3 % 2 ^ 23
    let scale := getLocals s (ownKey s rec_) 32
    let w := [dword scale 0, dword scale 1, dword scale 2, dword scale 3]
    let scaled (x y : Nat) := rec_ % 32 = 0 ∧ rec_ ≤ 0xFFFE0 ∧ inStash s (ownKey s rec_) 32 = false ∧ localPoison s (ownKey s rec_) 32 = false ∧ scalesReserved x y w = false
    let queued (c : MatrixCmd) := goesOn { issued s with eng := { s.eng with q0 := s.eng.q0 ++ [c] } } 4
    (∀ x y, s.eng.q1.length < 16 → e3 / 2 ^ 12 % 2 ^ 11 = 0 → issueFin s (.copy a b q) q (readE s 3) = .ok s fin → s.eng.shapes.get (e3 % 64) = some x →
        s.eng.shapes.get (e3 / 64 % 64) = some y → copyReason s (e3 % 64) (e3 / 64 % 64) (readX s a) (readX s b) = none →
        Completes s (.copy a b q) (goesOn { issued s with eng := { s.eng with q1 := s.eng.q1 ++ [{ src := x, dst := y, srcBase := readX s a, dstBase := readX s b, fin := fin, result := none }] } } 4))
      ∧ (s.eng.q0.length < 16 → operandReserved s (readE s 0) af (e2 / 2 ^ 48) = false → operandReserved s (readE s 1) bf (e2 / 2 ^ 32 % 2 ^ 16) = false → e2 % 2 ^ 16 = 0 →
        16 * (e2 / 2 ^ 26 % 64 + 1) % min (formatChunk af) (formatChunk bf) = 0 → seedPoison s (readE s 0) = none → seedPoison s (readE s 1) = none → issueFin s (.mma t q) q (readE s 3) = .ok s fin →
        (isScaled af = false → isScaled bf = false → rec_ = 0 → Completes s (.mma t q) (queued (matrixCommand s .mma t.toNat 0 [] 0 0 0 fin)))
          ∧ ((isScaled af || isScaled bf) = true → scaled af bf → Completes s (.mma t q) (queued (matrixCommand s .mma t.toNat 0 w 0 0 0 fin))))
      ∧ (s.eng.q0.length < 16 → (readE s 0).getLsbD 63 = false → e2 / 2 ^ 26 % 64 = 0 → af = 1 ∨ af = 4 → operandReserved s (readE s 1) bf (e2 / 2 ^ 32 % 2 ^ 16) = false → e2 % 2 ^ 16 = 0 →
        seedPoison s (readE s 1) = none → issueFin s (.mmac t src q) q (readE s 3) = .ok s fin →
        (isScaled bf = false → Completes s (.mmac t src q) (queued (matrixCommand s .mmac t.toNat src.toNat [] 0 0 0 fin)))
          ∧ (isScaled bf = true → scaled 0 bf → Completes s (.mmac t src q) (queued (matrixCommand s .mmac t.toNat src.toNat w 0 0 0 fin))))
      ∧ (s.eng.q0.length < 16 →
        Completes s (.acld t a) (queued (matrixCommand s .acld t.toNat 0 [] (readX s a) 0 0 (plainFin s (.acld t a) 0 (readE s 3))))
          ∧ Completes s (.acst t a) (queued (matrixCommand s .acst t.toNat 0 [] (readX s a) 0 0 (plainFin s (.acst t a) 1 (readE s 3))))
          ∧ Completes s (.acz t) (queued (matrixCommand s .acz t.toNat 0 [] 0 0 0 (plainFin s (.acz t) 0 (readE s 3))))
          ∧ (accvtReserved s (readX s b) = false → (readX s b).toNat % 8 ≠ 5 → (readX s b).toNat % 8 ≠ 7 → Completes s (.accvt t a b)
            (queued (matrixCommand s .accvt t.toNat 0 [] (readX s a) (readX s b) (BitVec.ofNat 3 (readX s b).toNat) (plainFin s (.accvt t a b) 1 (readE s 3)))))
          ∧ (accvtReserved s (readX s b) = true → Completes s (.accvt t a b) (parkReserved s (BitVec.ofNat 64 (encode (.accvt t a b))))))
      ∧ (16 ≤ s.eng.q0.length → s.cpu.stepping = false → ∀ i ∈ [Instr.mma t q, .mmac t src q, .acld t a, .acst t a, .acz t, .accvt t a b], i.wellFormed = true →
        ∃ u, exec i s = .next u ∧ u.own.stalled = true ∧ readPc u = readPc s ∧ u.eng = s.eng)

/-- Grid instructions (R305 to R314, R320, R335 to R339). GRDEF queues a descriptor that passes the checks; GRBC changes
one boundary rule; GRSTEP adds one to the step and queues an exchange when the step is a multiple of the depth;
LDHS reads an own cell, or a ghost cell that the landed slab still covers, and traps STALE when the slab is too old
for it; GRQ reads the slot, and a selector above 8 traps GRIDERR with reason 10, as does a GRBC of a field that is
no face, of a word with other bits, and to or from PERIODIC. An undefined slot traps GRIDERR with reason 1. -/
def Obligations.GridInstructions : Prop :=
  ∀ (s : State) (d a : Reg) (n : BitVec 3) (q : BitVec 2), s.own.turn = .core →
    let x := readX s a
    let g := gridOf s n.toNat
    let geo := geoOf g.desc
    let w := (List.range 16).map (dword (getLocals s (ownKey s x.toNat) 128))
    let c (i : Nat) : Int := (BitVec.ofNat 16 (x.toNat / 2 ^ (16 * i))).toInt
    let addr := geo.addr (g.s.toNat % 2) (c 0) (c 1) (c 2)
    let cell := ofBytes (getLocals s (ownKey s addr) geo.size)
    let cleared := { s with cpu := { s.cpu with ldhsSince := none } }
    (s.eng.q2.length < 8 → x.toNat % 8 = 0 → 0x800 ≤ x.toNat → x.toNat + 128 ≤ 0x100000 → inStash s (ownKey s x.toNat) 128 = false → localPoison s (ownKey s x.toNat) 128 = false →
        geoReserved w = false → geoReason s w = none →
        Completes s (.grdef a n) (goesOn { issued s with eng := { s.eng with q2 := s.eng.q2 ++ [{ slot := n.toNat, base := some (BitVec.ofNat 32 (geoOf w).step), fin := plainFin s (.grdef a n) 0 0, desc := some w }] } } 4))
      ∧ (s.eng.q2.length < 8 → (readE s 3).toNat % 2 ^ 23 = 0 → g.defined = true → ∀ fin, issueFin s (.grstep n q) q (readE s 3) = .ok s fin →
        ∃ t, Completes s (.grstep n q) t ∧ (gridOf t n.toNat).s = g.s + 1 ∧ (gridOf t n.toNat).desc = g.desc ∧ window t = window s
          ∧ t.eng.q2 = s.eng.q2 ++ [{ slot := n.toNat, base := if (g.s + 1).toNat % geo.dep = 0 then some (g.s + 1) else none, fin := fin, desc := none }])
      ∧ (g.defined = true → x.toNat < 64 → x.toNat % 8 < 6 → x.toNat / 8 < 5 → (x.toNat / 8 = 0 ↔ geo.rule (x.toNat % 8) = 0) → x.toNat / 8 ≠ 1 →
        periodicBad (geoOf (setAt g.desc 0 (withField (g.desc.getD 0 0) (24 + 3 * (x.toNat % 8)) 3 (x.toNat / 8)))) = false →
        Completes s (.grbc a n) (goesOn (setGrid s n.toNat { g with desc := setAt g.desc 0 (withField (g.desc.getD 0 0) (24 + 3 * (x.toNat % 8)) 3 (x.toNat / 8)) }) 4))
      ∧ (g.defined = true → x.toNat < 64 → x.toNat % 8 < 6 → x.toNat / 8 = 1 → (readE s 0).toNat < 2 ^ (8 * geo.size) → geo.rule (x.toNat % 8) ≠ 0 →
        periodicBad (geoOf (setAt g.desc 0 (withField (g.desc.getD 0 0) (24 + 3 * (x.toNat % 8)) 3 1))) = false →
        Completes s (.grbc a n) (goesOn (setGrid s n.toNat
          { g with desc := setAt (setAt g.desc 0 (withField (g.desc.getD 0 0) (24 + 3 * (x.toNat % 8)) 3 1)) (8 + x.toNat % 8) (readE s 0) }) 4))
      ∧ (g.defined = true → x.toNat / 8 % 8 < 5 → (x.toNat / 8 % 8 = 1 → (readE s 0).toNat < 2 ^ (8 * geo.size)) →
        (5 < x.toNat % 8 ∨ 64 ≤ x.toNat ∨ ¬ (x.toNat / 8 % 8 = 0 ↔ geo.rule (x.toNat % 8) = 0)) → Completes s (.grbc a n) (takeTrap s causeGriderr (reasoned 10 x)))
      ∧ (5 ≤ x.toNat / 8 % 8 ∨ (g.defined = true ∧ x.toNat / 8 % 8 = 1 ∧ 2 ^ (8 * geo.size) ≤ (readE s 0).toNat) →
        Completes s (.grbc a n) (parkReserved s (BitVec.ofNat 64 (encode (.grbc a n)))))
      ∧ (8 < x.toNat → Completes s (.grq d a n) (takeTrap s causeGriderr (reasoned 10 x)))
      ∧ (g.defined = true → x = 8 → ∃ w, Writes s (.grq d a n) d w 4 ∧ ∀ b, w.getLsbD b = true ↔ ∃ f, f < 6 ∧
        (b = f ∧ (g.faces.get f).newest.isSome = true ∨ b = 8 + f ∧ (g.faces.get f).older.isSome = true ∨ b = 16 + f ∧ (g.faces.get f).held ≠ []))
      ∧ (g.defined = true → isFenced s 0 = false → s.mem.shadows = [] → x.toNat < 2 ^ 48 → beyondFrame geo (c 0) (c 1) (c 2) = false → inStash s (ownKey s addr) geo.size = false → localPoison s (ownKey s addr) geo.size = false →
        (ghostFace geo (c 0) (c 1) (c 2) = none → Completes s (.ldhs d a n) (goesOn (writeX cleared d (placeLane (laneType geo.et) cell)) 4))
          ∧ ∀ f dist b, ghostFace geo (c 0) (c 1) (c 2) = some (f, dist) → landedBase (g.faces.get f) g.s = some b → (g.s - b).toNat < geo.dep →
            (dist ≤ geo.rad * (geo.dep - (g.s - b).toNat) → Completes s (.ldhs d a n) (goesOn (writeX cleared d (placeLane (laneType geo.et) cell)) 4))
              ∧ (geo.rad * (geo.dep - (g.s - b).toNat) < dist → Completes s (.ldhs d a n) (takeTrap cleared causeStale (staleWord 2 n f g.s))))
      ∧ (g.defined = true → (x = 0 → Writes s (.grq d a n) d (g.s.zeroExtend 64) 4)
        ∧ (x = 1 → Writes s (.grq d a n) d (BitVec.ofNat 64 (g.last.toNat * 2 ^ 32 + g.lastDone.toNat * 2 + 1)) 4)
        ∧ ∀ f, f < 6 → x = BitVec.ofNat 64 (2 + f) → Writes s (.grq d a n) d (BitVec.ofNat 64 (((g.faces.get f).newest.getD 0).toNat * 2 ^ 32 + ((g.faces.get f).older.getD 0).toNat)) 4)
      ∧ (g.defined = false → (x.toNat ≤ 8 → Writes s (.grq d a n) d 0 4) ∧ Completes s (.ldhs d a n) (takeTrap s causeGriderr (reasoned 1 (n.zeroExtend 64)))
        ∧ (x.toNat / 8 % 8 < 5 → Completes s (.grbc a n) (takeTrap s causeGriderr (reasoned 1 (n.zeroExtend 64)))))

/-- COMPLETION (R273 to R275): an operation sets its tag bit in every mode but 000; mode 001 keeps the first nonzero
status in ENGSTAT; mode 010 decrements its counter with the status and byte count. Stated where the event stream
is off and no arm is set. What the operation wrote is from then on seen whole (`endOperation`, R227). -/
def Obligations.EngineCompletion : Prop :=
  ∀ (s : State) (fin : Completion) (unit sub n : Nat) (st : BitVec 16), unit ≤ 3 → eventOn s unit = false → (∀ j, s.cpu.arms.get j = none) →
    let t := completeOp s fin unit sub st n
    let bit_ : Word := BitVec.ofNat 64 (2 ^ fin.tag.toNat)
    let e := endOperation s fin.id
    let u : State := { e with cpu := { e.cpu with tags := s.cpu.tags ||| bit_ } }
    t.cpu.tags = (if fin.mode = 0 then s.cpu.tags else s.cpu.tags ||| bit_)
      ∧ (fin.mode = 2 → t = decrement u fin.ctr.toNat st n) ∧ (fin.mode = 1 → st = 0 → t = u) ∧ (fin.mode = 0 → st = 0 → t = e)
      ∧ (fin.mode = 1 → st ≠ 0 → s.cpu.engstat.getLsbD 0 = false → t.cpu.engstat = BitVec.ofNat 64 (st.toNat * 2 ^ 48 + fin.tag.toNat * 2 ^ 42 + (if unit = 3 then 2 else unit) * 2 ^ 40 + 1))
      ∧ (s.cpu.engstat.getLsbD 0 = true → t.cpu.engstat = s.cpu.engstat)

/-- What the engines do on their own (R277, R283, R293, R294, R309 to R313, R329, R348), where no release and no
FENCEX of the core holds their commands back (R229, R246): a copy takes a free channel and moves its bytes; a matrix
command starts, unless an operand lies in a stash region, adds a chunk, leaves the engine after its last one, faults,
completes; a pending fault traps MFETCH with the fault registers set; a slab for an undefined slot is held; the Levee
engine takes a command; a stalled LDHS traps STALE with reason 3 after its limit. That COPY_COMPLETE moves the source
bytes as they stand at completion is the model's choice (log entry 27): R277 and R285 leave the moment open. -/
def Obligations.EngineEvents : Prop :=
  ∀ s : State, enginesHeld s = false → enginesFrozen s = false →
    (∀ c ch, nextCopy (s.eng.q1.filter fun c => accepts s 1 c.fin) = some c → freeChannel s = some ch → ∃ t, exec .copyStart s = .next t ∧ t.eng.q1 = s.eng.q1.erase c ∧ (t.eng.channels.get ch).isSome = true)
      ∧ (∀ (ch : BitVec 4) (c : CopyCmd) (h : Shape) (n : Nat), s.eng.channels.get ch.toNat = some c → c.result = none → c.src = h → c.dst = h → h.ndim = 1 → h.packed = false → h.ebits = 8 →
        h.counts = [n] → h.strides = [1] → 0 < n → c.srcBase.toNat + n ≤ 0x100000 → c.dstBase.toNat + n ≤ 0x100000 → 0x800 ≤ c.dstBase.toNat →
        inStash s (ownKey s c.srcBase.toNat) n = false → inStash s (ownKey s c.dstBase.toNat) n = false →
        c.fin.mode = 1 → eventOn s 0 = false → (∀ j, s.cpu.arms.get j = none) →
        ∃ t, exec (.copyComplete ch) s = .next t ∧ t.eng.channels.get ch.toNat = none ∧ t.cpu.tags = s.cpu.tags ||| BitVec.ofNat 64 (2 ^ c.fin.tag.toNat)
          ∧ getLocals t (ownKey s c.dstBase.toNat) n = getLocals s (ownKey s c.srcBase.toNat) n
          ∧ ∀ k, (k < ownKey s c.dstBase.toNat ∨ ownKey s c.dstBase.toNat + n ≤ k) → getLocal t k = getLocal s k)
      ∧ (∀ c, accepts s 2 c.fin = true → s.eng.running = none → s.eng.waiting = [] → s.eng.q0 = [c] →
        ∃ t m, exec .matrixCommandStart s = .next t ∧ t.eng.q0 = [] ∧ m.cmd = c ∧ m.chunk = 0
          ∧ if c.isProduct && productInStash s c then t.eng.running = none ∧ t.eng.waiting = [m] ∧ m.finished = true ∧ m.status = 5
            else t.eng.running = some m ∧ t.eng.waiting = [] ∧ (c.isProduct = true → m.finished = false))
      ∧ (∀ m g, s.eng.running = some m → m.finished = false → m.cmd.isProduct = true →
        (fetchProduct { s with own := { s.own with draws := s.own.draws + 1 } } s.own.draws m.cmd (m.chunk * m.cmd.chunkSize) ((m.chunk + 1) * m.cmd.chunkSize) = .ok g → g.lines = [] → g.poison = false →
          ∃ t, exec .matrixChunk s = .next t ∧ (m.chunk + 1 < m.cmd.chunks → (bestLevel s).all (· ≤ m.cmd.fin.level) = true → (t.eng.running.map (·.chunk)) = some (m.chunk + 1))
            ∧ (m.cmd.chunks ≤ m.chunk + 1 → t.eng.running = none ∧ ∃ e, t.eng.waiting = s.eng.waiting ++ [e] ∧ e.finished = true ∧ e.cmd = m.cmd)
            ∧ ∀ i j, i < 16 → j < 16 → readTile t m.cmd.fin.level m.cmd.tile i j =
              (let ks := (List.range m.cmd.chunkSize).map (m.chunk * m.cmd.chunkSize + ·)
               chunkElement m.cmd.isFloat (readTile s m.cmd.fin.level m.cmd.tile i j) (ks.map (elementA s m.cmd g i)) (ks.map fun k => elementB s m.cmd g k j)).1)
          ∧ ∀ f, fetchProduct { s with own := { s.own with draws := s.own.draws + 1 } } s.own.draws m.cmd (m.chunk * m.cmd.chunkSize) ((m.chunk + 1) * m.cmd.chunkSize) = .fault f →
            ∃ t, exec .matrixFetchFault s = .next t ∧ t.eng.running = none ∧ t.eng.waiting = s.eng.waiting ++ [{ m with fault := some f, trapPending := true }])
      ∧ (∀ m, s.eng.running = some m → m.cmd.kind = .acz → m.finished = false → s.eng.waiting.find? (fun x => x.finished && x.fault.isNone) = none →
        ∃ t, exec .matrixComplete s = .next t ∧ t.eng.running = none ∧ ∀ i j, i < 16 → j < 16 → readTile t m.cmd.fin.level m.cmd.tile i j = 0)
      ∧ (∀ m, s.eng.running = none → s.eng.waiting.find? (fun x => x.finished && x.fault.isNone) = some m →
        ∃ t, exec .matrixComplete s = .next t ∧ t.eng.running = none ∧ t.eng.waiting = s.eng.waiting.erase m)
      ∧ (∀ m f, pendingMfetch s = some m → m.fault = some f → s.cpu.trap = none → s.cpu.parked = none → s.cpu.halted = false → s.cpu.tvec.getLsbD 0 = true →
        ∃ t, exec .mfetch s = .next t ∧ t.cpu.trap.isSome = true ∧ t.cpu.trapCause = BitVec.ofNat 64 causeMfetch.toNat ∧ t.cpu.trapVal = f.addr ∧ t.cpu.mfpc = m.cmd.pc
          ∧ t.cpu.mfault = mfaultWord m f ∧ (isIdle s = false → t.cpu.trapPc = readPc { s with own := { s.own with turn := .core } }))
      ∧ (∀ p : Slab, p.part = partOf s → p.face.toNat < 4 → (gridOf s p.slot.toNat).defined = false → s.eng.exchanges = [] →
        let g := gridOf s p.slot.toNat
        exec (.slab p) s = .next (setGrid s p.slot.toNat { g with faces := g.faces.set p.face.toNat { g.faces.get p.face.toNat with held := (g.faces.get p.face.toNat).held ++ [p] } }))
      ∧ (∀ c, accepts s 3 c.fin = true → s.eng.q2 = [c] → ∃ t, exec .leveeTake s = .next t ∧ t.eng.q2 = []
        ∧ ∀ desc, c.desc = some desc → (gridOf t c.slot).defined = true ∧ (gridOf t c.slot).desc = desc ∧ (gridOf t c.slot).s = BitVec.ofNat 32 (geoOf desc).step)
      ∧ (∀ since v, s.cpu.ldhsSince = some (since, v) → since.toNat + 2400 ≤ s.cpu.time.toNat → s.cpu.parked = none → s.cpu.halted = false →
        exec .ldhsStallLimit s = .next (takeTrap { s with cpu := { s.cpu with ldhsSince := none }, own := { s.own with turn := .core } } causeStale v))

/-! ## Parking, partitions, and the debug module -/

/-- PARK, TLBINV, CTXSV and CTXRS (R361 to R370). PARK of the own core parks it behind the instruction, or out of a
trap frame at TRAPPC; a request for another core enters q3; TLBINV publishes and drops the leaves it names. A save or
a restore whose accesses are all made takes its effect, and an operand that R367 refuses traps PARTERR. The record of
a whole core and its restore by matching rest on log entries 33 and 37, the record that TLBINV leaves on log entry 15.
-/
def Obligations.PartitionInstructions : Prop :=
  ∀ (s : State) (a b : Reg), s.own.turn = .core →
    let x := readX s a
    let y := readX s b
    (x.toNat % 2 ^ 60 = 0 → x.toNat < 2 ^ 62 → s.cpu.trap = none → s.cpu.frames ≠ [] →
        ∃ t, Completes s (.park a) t ∧ t.cpu.parked = some (readPc s + 4) ∧ readPc t = (readPc s + 4) &&& ~~~1 ∧ t.cpu.trapCause = BitVec.ofNat 64 causeParked.toNat
          ∧ t.cpu.trapPc = readPc s + 4 ∧ t.cpu.trapVal = 0 ∧ t.cpu.retired = s.cpu.retired + 1 ∧ window t = window s)
      ∧ (∀ f, x.toNat % 2 ^ 60 = 0 → x.toNat < 2 ^ 62 → s.cpu.trap = some f → f.operation = none →
        ∃ t, Completes s (.park a) t ∧ t.cpu.trap = none ∧ t.cpu.parked = some s.cpu.trapPc ∧ t.cpu.trapCause = s.cpu.trapCause ∧ t.cpu.trapVal = s.cpu.trapVal)
      ∧ (∀ op how : BitVec 2, op = 1 ∨ op = 2 → (op = 1 → how ≠ 3) → x.toNat = op.toNat * 2 ^ 62 + how.toNat * 2 ^ 60 + x.toNat % 2 ^ 18 → q3Used s < 8 →
        validTarget s (BitVec.ofNat 64 (x.toNat % 2 ^ 18)) = true → Completes s (.park a) (goesOn (withOutbound (publish s) (.park (coreOf x) { op := op, how := how, part := partOf s })) 4))
      ∧ (x.toNat / 2 ^ 62 = 3 ∨ x.toNat / 2 ^ 18 % 2 ^ 42 ≠ 0 ∨ x.toNat / 2 ^ 60 = 7 ∨ (x.toNat < 2 ^ 62 ∧ x.toNat % 2 ^ 18 ≠ 0) →
        Completes s (.park a) (takeTrap s causeParterr (reasoned 1 x)))
      ∧ (y.toNat % 2 ^ 61 = 0 → y.toNat < 2 ^ 63 → Completes s (.tlbinv a b)
        (let p := publish s
         let all := decide (y.toNat / 2 ^ 62 = 1)
         goesOn (if y.getLsbD 61 && !clusterInRect p then p
           else { p with mem := { p.mem with tlb := p.mem.tlb.filter fun t => !(tlbNamed p x.toNat all t),
                                             tlbinvs := p.mem.tlbinvs ++ [{ tick := p.own.tick, part := partOf p, va := if all then none else some x.toNat }] } }) 4))
      ∧ (2 ^ 63 ≤ y.toNat ∨ y.toNat % 2 ^ 61 ≠ 0 → Completes s (.tlbinv a b) (takeTrap s causeParterr (reasoned 1 y)))
      ∧ (∀ r, areaOperand s x = .error r → Completes s (.ctxsv a) (takeTrap s causeParterr (reasoned r x)) ∧ Completes s (.ctxrs a) (takeTrap s causeParterr (reasoned r x)))
      ∧ (∀ area f fs t, areaOperand s x = .ok (area, true) → awaitsAny s = false → isFenced s 0 = false → s.cpu.frames = f :: fs → f.spilled = false → f.poison = [] →
        storeAll area (inDwords (0, windowBytes f.regs)) s = .ok t () → Completes s (.ctxsv a) (goesOn t 4))
      ∧ (∀ area t, areaOperand s x = .ok (area, false) → awaitsAny s = false → isFenced s 0 = false →
        let next := writePc s (readPc s + 4)
        let c := recordedCore next wholeSave
        poisonedContext s c = none → storeAll area ((recordParts next c 1 s.own.draws ++ localParts s).flatMap inDwords) { s with own := { s.own with draws := s.own.draws + 1 } } = .ok t () →
          Completes s (.ctxsv a) (goesOn { t with contexts := t.contexts ++ [contextOf s c s.own.draws] } 4))
      ∧ (∀ area t l f fs, areaOperand s x = .ok (area, true) → awaitsAny s = false → isFenced s 0 = false → loadAll area ((List.range 32).map fun i => 8 * i) s = .ok t l → t.cpu.frames = f :: fs →
        let r := loadedView area ((List.range 32).map fun i => 8 * i) l
        let n := 8 * (f.wcode.toNat + 1)
        Completes s (.ctxrs a) (goesOn { t with cpu := { t.cpu with frames := { f with regs := windowFrom r 0 n, poison := poisonFrom r 0 n, spilled := false } :: fs } } 4))
      ∧ (∀ area s1 s2 s3 h l c, areaOperand s x = .ok (area, false) → awaitsAny s = false → isFenced s 0 = false → checkPages area (List.range 32) s = .ok s1 () → loadAll area [24] s1 = .ok s2 h →
        let offs := recordOffsets (ofBytes (((h.headD ([], false)).1.drop 4).take 2))
        let r := loadedView area offs l
        loadAll area offs s2 = .ok s3 l → r.num 4 1 = (partOf s3).toNat → r.num 0x3FFFC 4 = (crc32 ((List.range 0xDFFC).map fun i => r.byte (0x32000 + i))).toNat → matching s3 r = some c → c.cpu.frames.length ≤ 24 →
          ∃ t, Completes s (.ctxrs a) t ∧ t.cpu.frames.map Frame.level = c.cpu.frames.map Frame.level ∧ t.cpu.partid = s3.cpu.partid ∧ t.cpu.away = false)

/-- Partition events (R355, R356, R359 to R364, R368): a due slice makes the core switch-pending, and a core at rest
with nothing outstanding is saved and leaves; so it is at the deadline. A matching record of an incoming partition is
restored. A PARK request parks, or resumes at the park address. The watchdog posts once. The model's choices are that
a resume goes on at the park address with bit 0 clear (log entry 35), the form of a PARK request in the late ring (log
entries 34 and 35), and a restore by matching a record (log entry 33). -/
def Obligations.PartitionEvents : Prop :=
  ∀ s : State, s.own.turn = .core → s.cpu.poweredOff = false →
    (sliceDue s = false → exec .sliceInstant s = .next s)
      ∧ (sliceDue s = true → s.cpu.saving = none → isResting s = false → exec .sliceInstant s = .next { s with cpu := { s.cpu with switching := true } })
      ∧ (enginesQuiet s = true → s.mem.grants = [] → s.cpu.acks = [] → s.cpu.inFlight = [] → s.mem.buffer = [] →
        (sliceDue s = true → s.cpu.saving = none → isResting s = true → ∃ t, exec .sliceInstant s = .next t ∧ t.cpu.away = true ∧ t.contexts.length = s.contexts.length + 1)
          ∧ (deadlinePassed s = true → ∃ t, exec .sliceDeadline s = .next t ∧ t.cpu.away = true ∧ t.contexts.length = s.contexts.length + 1))
      ∧ (∀ (area : BitVec 44) c p, s.cpu.away = true →
        let r : RecordView := { byte := fun o => (areaBytes s (area.toNat + o) 1).headD 0, bad := fun o => homePoisoned s (area.toNat + o), addr := fun o => BitVec.ofNat 64 (area.toNat + o) }
        matching s r = some c → s.cfe.partitions.find? (fun q => decide (q.id.toNat = r.num 4 1)) = some p →
          ∃ t, exec (.contextRestore area) s = .next t ∧ t.cpu.away = false ∧ t.cpu.partid.toNat % 64 = p.id.toNat ∧ t.cpu.fhand = p.fhand ∧ t.cpu.keymask = p.keymask
            ∧ t.cpu.xroot = p.xroot ∧ t.cpu.slat = p.slat)
      ∧ (deadlinePassed s = false → exec .sliceDeadline s = .next s)
      ∧ (s.cpu.away = false → s.cpu.parked = none → s.cpu.lateRing = none → s.cfe.bootState ≠ 2 → ∀ how,
        (s.cpu.trap = none → s.cpu.frames ≠ [] → ∃ t, exec (.parkRequest { op := 2, how := how, part := partOf s }) s = .next t ∧ t.cpu.parked = some (readPc s) ∧ t.cpu.trapPc = readPc s
            ∧ t.cpu.trapCause = BitVec.ofNat 64 causeParked.toNat ∧ window t = window s)
          ∧ (s.cpu.trap.isSome = true → exec (.parkRequest { op := 2, how := how, part := partOf s }) s = .next { s with cpu := { s.cpu with parkWaits := true } }))
      ∧ (∀ at_, s.cpu.away = false → s.cpu.parked = some at_ → s.cpu.lateRing = none → s.cfe.bootState ≠ 2 → s.cpu.resuming = none → Running s →
        ∃ t, exec (.parkRequest { op := 1, how := 0, part := partOf s }) s = .next t ∧ t.cpu.parked = none ∧ readPc t = at_ &&& ~~~1 ∧ window t = window s ∧ t.mem = s.mem)
      ∧ (∀ r : ParkRequest, (s.cfe.bootState ≠ 2 → r.part ≠ partOf s → exec (.parkRequest r) s = .next (arriveLate s r.part (messageBytes (parkMessage s r))))
        ∧ (s.cfe.bootState ≠ 2 → s.cpu.away = false → s.cpu.lateRing.isSome = true → r.part = partOf s →
          exec (.parkRequest r) s = .next (holdLate s r.part (messageBytes (parkMessage s r))))
        ∧ (s.cfe.bootState = 2 → exec (.parkRequest r) s = .next s))
      ∧ (s.cpu.wdPosted = false → 0 < watchdogLimit s → watchdogLimit s < s.cpu.wdCount → ∃ t, exec .watchdog s = .next t ∧ t.cpu.wdPosted = true ∧ t.cpu.frames = s.cpu.frames)
      ∧ (s.cpu.wdCount ≤ watchdogLimit s → exec .watchdog s = .next s)

/-- The debug module (R371 to R377, R381 to R383, R391): a halt saves the pc and publishes, a resume goes on at DPCc,
a trigger halts with cause 2, ENGSTEP ends a finished operation or a performed copy, abstract commands read and write
a register or a doubleword of the core, a sample writes its record or counts a lost one, and a unit that exceeds its
hold limit stops forcing. Memory errors (R222 to R224, R352): an uncorrectable one poisons its granule, a corrected
one changes no memory, each leaves a record; the scrubber passes over an address that holds no memory and changes no
byte anywhere. That an error in a banked register marks a register of the running level's bank is the model's choice
(log entry 42). -/
def Obligations.DebugAndErrorEvents : Prop :=
  (∀ s : State, s.own.turn = .core →
      let me := coreIndex s.cpu.coreId
      (s.dbg.en = true → (∀ mask : BitVec 4, mask.getLsbD me = true → s.cpu.halted = false → s.cpu.poweredOff = false →
          ∃ t, exec (.haltreq mask) s = .next t ∧ t.cpu.halted = true ∧ t.dbg.dpc.get me = readPc s &&& 0x7FFFFFFFFFFFFF ∧ t.dbg.cause = 1 ∧ (s.mem.kept = [] → s.cpu.inFlight = [] → peatModeOf s (partOf s) ≠ 2 → t.mem.grants = []) ∧ window t = window s)
        ∧ (∀ mask : BitVec 4, mask.getLsbD me = true → s.cpu.halted = true → s.cpu.trapWaits = false → Running s →
          ∃ t, exec (.resumereq mask) s = .next t ∧ t.cpu.halted = false ∧ readPc t = s.dbg.dpc.get me &&& ~~~1 ∧ t.cpu.stepping = s.dbg.step.getLsbD me ∧ window t = window s ∧ t.mem = s.mem)
        ∧ (∀ mask : BitVec 4, mask &&& ~~~s.dbg.halted &&& ~~~(BitVec.ofNat 4 (2 ^ me)) = 0 → mask.getLsbD me = false ∨ s.cpu.halted = true → exec (.haltreq mask) s = .next s)
        ∧ (s.dbg.xtin = true → s.cpu.halted = false → s.cpu.poweredOff = false → s.dbg.halted ≠ 15 → ∃ t, exec .debugTrigger s = .next t ∧ t.cpu.halted = true ∧ t.dbg.cause = 2)
        ∧ (s.dbg.xtin = false ∨ s.dbg.halted = 15 → exec .debugTrigger s = .next s)
        ∧ (enginesFrozen s = true → enginesHeld s = false →
          (∀ v m, v.toNat % 16 = me → s.eng.running = some m → m.cmd.kind = .acz → ∃ t, exec (.engstep v) s = .next t ∧ t.eng.running = none)
            ∧ (∀ v m, v.toNat % 16 = me → s.eng.running = none → bestLevel s = none → s.eng.waiting.find? (fun x => x.finished && x.fault.isNone) = some m →
              ∃ t, exec (.engstep v) s = .next t ∧ t.eng.waiting = s.eng.waiting.erase m)
            ∧ (∀ v ch c r, v.getLsbD 3 = true → ch < 16 → s.eng.channels.get ch = some c → (∀ j, j ≠ ch → s.eng.channels.get j = none) → c.result = some r →
              ∃ t, exec (.engstep v) s = .next t ∧ t.eng.channels.get ch = none))
        ∧ (s.dbg.astat = 1 → ∀ a, exec (.acmdReadContext a) s = .next s ∧ exec (.acmdWriteContext a) s = .next s ∧ exec (.acmdReadVa a) s = .next s ∧ exec (.acmdWriteVa a) s = .next s)
        ∧ (s.dbg.astat ≠ 1 → s.cpu.halted = true → s.cpu.away = false → s.cpu.poweredOff = false →
          (∀ l i f, l < 24 → frameAt s l = some f → f.spilled = false → 0 < i → i < 8 * (f.wcode.toNat + 1) →
              (∃ t, exec (.acmdReadContext (BitVec.ofNat 55 (0x800 + 256 * l + 8 * i))) s = .next t ∧ t.dbg.adata = f.regs.get i ∧ t.dbg.astat = 0 ∧ t.cpu = s.cpu)
                ∧ (∃ t, exec (.acmdWriteContext (BitVec.ofNat 55 (0x800 + 256 * l + 8 * i))) s = .next t ∧ t.dbg.astat = 0
                  ∧ (frameAt t l).map (fun g => g.regs.get i) = some s.dbg.adata ∧ ∀ j, j ≠ i → (frameAt t l).map (fun g => g.regs.get j) = some (f.regs.get j)))
            ∧ (∀ off : BitVec 55, 0x41000 ≤ off.toNat → ∃ t, exec (.acmdReadContext off) s = .next t ∧ t.dbg.astat = 2)
            ∧ (∀ va : BitVec 55, isFenced s 0 = false → s.mem.shadows = [] → OwnBytes s (va.zeroExtend 64) 8 →
              (∃ t, exec (.acmdReadVa va) s = .next t ∧ t.dbg.astat = 0 ∧ t.dbg.adata = wordOf (getLocals s (ownKey s va.toNat) 8))
                ∧ (0x800 ≤ va.toNat → s.mem.buffer.length ≤ 16 → ∃ t, exec (.acmdWriteVa va) s = .next t ∧ t.dbg.astat = 0
                  ∧ getLocals t (ownKey s va.toNat) 8 = toBytes 8 s.dbg.adata.toNat))))
        ∧ (s.dbg.en = false → ∀ mask, exec (.haltreq mask) s = .next s ∧ exec .debugTrigger s = .next s)
        ∧ (s.cpu.pcscfg.getLsbD 5 = false → exec .pcSample s = .next s)
        ∧ (s.cpu.pcscfg.getLsbD 5 = true → s.cpu.away = false → s.cpu.poweredOff = false → ∃ t, exec .pcSample s = .next t ∧ window t = window s
          ∧ (let i := s.cpu.pcsidx.toNat
             t.cpu.pcsidx.toNat = i / 2 ^ 32 * 2 ^ 32 + (i + 1) % 2 ^ 32 ∨ t.cpu.pcsidx.toNat = (i / 2 ^ 32 + 1) % 2 ^ 32 * 2 ^ 32 + i % 2 ^ 32))
        ∧ (∀ p u, (isForcedIn s p u = true → unitHolds s p u = true → ∃ t d, exec (.replayHoldLimit { part := p, unit := u }) s = .next t ∧ t.cfe.diverged = s.cfe.diverged ++ [d] ∧ d.part = p ∧ d.unit = u ∧ isForcedIn t p u = false)
          ∧ (isForcedIn s p u = false ∨ unitHolds s p u = false → exec (.replayHoldLimit { part := p, unit := u }) s = .next s)))
    ∧ (∀ (s : State),
      (∀ (c : BitVec 2) (g : BitVec 17), ∃ t, exec (.sramError (.local_ c g) false) s = .next t ∧ t.mem.lmem = s.mem.lmem ∧ t.cfe.ras.length = s.cfe.ras.length + 1
          ∧ let key := c.toNat * 0x100000 + 8 * g.toNat
            if (stashSpan s).1 ≤ key ∧ key < (stashSpan s).2 then t.mem.lpoison = s.mem.lpoison else t.mem.lpoison.get (key / 8) = true)
        ∧ (∀ g, populated (8 * g.toNat) = true → ∃ t, exec (.sramError (.global g) false) s = .next t ∧ t.mem.ppoison.get g.toNat = true ∧ t.mem.pmem = s.mem.pmem)
        ∧ (∀ (r : Reg) f fs, r ≠ 0 → s.cpu.trap = none → s.cpu.frames = f :: fs → ∃ t g, exec (.sramError (.register r) false) s = .next t ∧ t.cpu.frames = g :: fs
          ∧ (g.poison.any fun p => decide (p.reg = r.toNat)) = true ∧ g.regs = f.regs)
        ∧ (∀ r : BitVec 7, 32 ≤ r.toNat → r.toNat < 77 → isIdle s = false → ∃ t, exec (.sramError (.bank r) false) s = .next t
          ∧ t.cpu.bankPoison.get (128 * level s + r.toNat) = true ∧ t.cpu.v = s.cpu.v ∧ t.cpu.frames = s.cpu.frames)
        ∧ (∀ x, ∃ t, exec (.sramError x true) s = .next t ∧ t.mem = s.mem ∧ t.cpu = s.cpu ∧ t.cfe.ras.length = s.cfe.ras.length + 1)
        ∧ (∀ line : BitVec 37, (populated (line.toNat * 128) = false → exec (.patrolScrub line) s = .next s)
          ∧ ∃ t, exec (.patrolScrub line) s = .next t ∧ t.mem.pmem = s.mem.pmem ∧ t.mem.lmem = s.mem.lmem ∧ t.cpu = s.cpu))

/-! ## Switch kernels, queue programs, the fabric -/

/-- The instructions of the bounded profile (R417 to R420, R441). LOOPB counts up and goes back while its counter is
below N − 1. PKTDROP, PKTFWD end the kernel's invocation, PKTFWD with the packet on its way under its new target,
class and body, whose header word 1 is the one received, or to the kernel of its new class; PKTEMIT puts a new message
into the switch, its SENDER and SENDTIME the switch's, and an image that is no image raises EMIT. SIGNAL raises a
count or wakes the first waiter, PARKQ lowers a count or waits, LAUNCH queues a launch; a number outside SETS and a
header outside the windows end the program. That SIGNAL and PARKQ with a number of 256 or more end the program with a
fault is the model's reading (log entry 63). -/
def Obligations.BoundedInstructions : Prop :=
  ∀ (s : State) (d a b : Reg) (n : BitVec 8) (o : BitVec 12),
    let x := readX s a
    let y := readX s b
    let k : BitVec 8 := BitVec.ofNat 8 x.toNat
    Completes s (.loopb d n o) (if (readX s d).toNat < n.toNat then jumpsTo (writeX s d (readX s d + 1)) (readPc s - BitVec.ofNat 64 (2 * o.toNat)) else goesOn s 4)
      ∧ (∀ p i, runningKernel s = some (p, i) →
        let target := coreOf x
        let stored := (List.range i.len).map i.window.get
        let img := (List.range 64).map fun j => i.scratch.get (x.toNat - 0x20000 + j)
        let tc := y.toNat / 256 % 4
        let m : Message := { hdr0 := dword img 0 ||| BitVec.ofNat 64 (tc * 2 ^ 56), hdr1 := BitVec.ofNat 64 (s.cpu.time.toNat % 2 ^ 32 * 2 ^ 32 + ownDev s * 2 ^ 10 + 0x3FE), body := (messageOf img).body }
        (∃ t, Completes s .pktdrop t ∧ t.fab.sedge.get p = none ∧ t.own.turn = .core ∧ t.fab.outputs = s.fab.outputs ∧ t.fab.delivered = s.fab.delivered)
          ∧ (∀ q, i.packet = some q → x.toNat < 2 ^ 32 → x.toNat / 2 ^ 18 % 2 ^ 6 = 0 → kernelTarget s i.cls.part (BitVec.ofNat 64 (x.toNat % 2 ^ 18)) = true →
            dword stored 0 &&& 0xF8C0000000000000 = 0 → hdrLevel (dword stored 0) < 24 →
            let onward : Packet := { q with ddev := BitVec.ofNat 8 (x.toNat / 2 ^ 10), dport := BitVec.ofNat 10 x.toNat, flow := BitVec.ofNat 8 (x.toNat / 2 ^ 24),
                                            body := stored.take 8 ++ (q.body.drop 8).take 8 ++ stored.drop 16 }
            ∃ t, Completes s (.pktfwd a) t ∧ t.fab.sedge.get p = none ∧ t.own.turn = .core
              ∧ (q.kind = 1 → q.body.length = 64 → i.len = 64 → idDev target = ownDev s →
                (loadedClass s q.part onward.flow = none → ∃ z, t.fab.outputs.get (240 + q.vc.toNat) = s.fab.outputs.get (240 + q.vc.toNat) ++ [z] ∧ z.origin = i.origin ∧ z.packet = onward)
                  ∧ ((loadedClass s q.part onward.flow).isSome = true → t.fab.waiting = s.fab.waiting ++ [.packet onward i.origin])))
          ∧ (i.packet = none → Completes s (.pktfwd a) (kernelTrap s p 6 x))
          ∧ (x.toNat % 64 = 0 → 0x20000 ≤ x.toNat → x.toNat + 64 ≤ 0x21000 → emitUsed s p < 8 → y.toNat < 2 ^ 10 → dword img 0 &&& 0xFFC0000000000000 = 0 →
            hdrLevel (dword img 0) < 24 → kernelTarget s i.cls.part (dword img 1) = true →
            ∃ t, Completes s (.pktemit a b) t ∧ readPc t = readPc s + 4
              ∧ (idDev (coreOf (dword img 1)) = ownDev s → ∃ q : Packet, q.kind = 1 ∧ q.body = messageBytes m ∧ q.flow = BitVec.ofNat 8 y.toNat ∧ q.part = i.cls.part
                ∧ (loadedClass s i.cls.part q.flow = none → ∃ z, t.fab.outputs.get (240 + tc) = s.fab.outputs.get (240 + tc) ++ [z] ∧ z.origin = .sedge p ∧ z.packet = q)
                ∧ ((loadedClass s i.cls.part q.flow).isSome = true → t.fab.waiting = s.fab.waiting ++ [.packet q (.sedge p)])))
          ∧ (x.toNat % 64 ≠ 0 → Completes s (.pktemit a b) (kernelTrap s p 6 x))
          ∧ (x.toNat % 64 = 0 → x.toNat < 0x20000 ∨ 0x21000 < x.toNat + 64 → Completes s (.pktemit a b) (kernelTrap s p 2 x))
          ∧ ∀ reason v, (kernelTrap s p reason v).fab.sedge.get p = none ∧ (kernelTrap s p reason v).own.turn = .core)
      ∧ (∀ p r q, runningProgram s = some (p, r, q) →
        let key := q.part.toNat * 256 + k.toNat
        let c := s.cfe.signals.get key
        let named (w : Waiter) := w.ready = false ∧ w.part = q.part ∧ w.signal = k
        let launched (range : Bool) (hdr blk : List Byte) : State := { s with cfe := { s.cfe with
          slots := s.cfe.slots.set p (some { r with launched := true })
          queues := s.cfe.queues.set r.queue (some { q with owed := if r.launched then q.owed else q.owed ++ [q.taken] })
          launches := s.cfe.launches ++ [{ gang := BitVec.ofNat 32 y.toNat, range := range, part := q.part, header := hdr, block := blk, queue := r.queue, index := q.taken, tag := commandTag r.command }] } }
        (x.toNat < 256 → k ∈ r.sets →
            ((∀ w ∈ s.cfe.waiters, ¬ named w) → Completes s (.signal a) (goesOn { s with cfe := { s.cfe with signals := s.cfe.signals.set key (if c = BitVec.allOnes 32 then c else c + 1) } } 4))
              ∧ ∀ pre w post, s.cfe.waiters = pre ++ w :: post → (∀ v ∈ pre, ¬ named v) → named w →
                Completes s (.signal a) (goesOn { s with cfe := { s.cfe with waiters := pre ++ { w with ready := true } :: post } } 4))
          ∧ (256 ≤ x.toNat ∨ k ∉ r.sets → Completes s (.signal a) (queueFault s p))
          ∧ (x.toNat < 256 → c ≠ 0 → Completes s (.parkq a) (goesOn { s with cfe := { s.cfe with signals := s.cfe.signals.set key (c - 1) } } 4))
          ∧ (x.toNat < 256 → c = 0 → ∃ t, Completes s (.parkq a) t ∧ t.cfe.slots.get p = none
            ∧ t.cfe.waiters = s.cfe.waiters ++ [{ run := { r with pc := r.pc + 4 }, signal := k, part := q.part, since := s.cpu.time, examined := false, ready := false }])
          ∧ (256 ≤ x.toNat → Completes s (.parkq a) (queueFault s p))
          ∧ (∀ hdr, y.toNat < 2 ^ 32 → queueLoad s r x.toNat 64 = .ok s hdr → Completes s (.launch a b) (goesOn (launched false hdr []) 4))
          ∧ (∀ hdr blk, y.toNat / 2 ^ 32 = 2 ^ 31 → queueLoad s r x.toNat 64 = .ok s hdr → queueLoad s r (x.toNat + 64) 24 = .ok s blk →
            Completes s (.launch a b) (goesOn (launched true hdr blk) 4))
          ∧ (0x40 < x.toNat + 64 → (x.toNat < 0x10000 ∨ 0x11000 < x.toNat + 64) → (x.toNat < 0x20000 ∨ 0x21000 < x.toNat + 64) → y.toNat < 2 ^ 32 →
            Completes s (.launch a b) (queueFault s p)))

/-- The fabric's own moves (R395 to R407, R412, R422 to R427). A packet that arrives on a link that is up enters the
queue of its route's output, or waits for its kernel, and occupies the port's buffer; one that the switch must discard
leaves a RAS record. An output sends its next packet: onto its link, into the crossbar, or to a port, where it takes
effect next. Control flits whose CRC is right set the sender's limits and return its credits; the targets of a
period add up to 8192. A link goes down and comes up; the sixteenth replay takes it down. TIME follows the
grandmaster, which is device 0, and never steps back. A packet, or a timer that fired, starts a kernel; a kernel at
its deadline is stopped. In minimal mode no packet and no CTRL has an effect (R450). The model's choices are that a
packet is diverted to its kernel as the switch takes it (log entry 45), that a delivered one stands on the agenda or
in the list of packets delivered (log entry 51), and that TIME takes the received value in one step (log entry 52). -/
def Obligations.FabricEvents : Prop :=
  ∀ (s : State) (l : BitVec 5),
    let x := linkOf s l.toNat
    let isUp := isConnected s l.toNat = true ∧ x.down = false
    let own : BitVec 8 := BitVec.ofNat 8 (ownDev s)
    let awaitsNothing := s.cpu.inFlight = [] ∧ s.eng.exchanges = [] ∧ s.eng.releases = [] ∧ s.mem.firings = [] ∧ s.mem.owed = [] ∧ s.cfe.hostAcks = []
    let runs := s.cfe.bootState ≠ 2
    (∀ p : Packet, runs → isUp → p.kind = 1 → p.body.length = 64 → inDomain s p.ddev.toNat = true →
        (isClassified s p = false → ∀ out, outputFor s p.sdev.toNat p.ddev.toNat = some out →
          ∃ t z, exec (.packetForward (.arrive l p)) s = .next t ∧ t.fab.outputs.get (8 * out + p.vc.toNat) = s.fab.outputs.get (8 * out + p.vc.toNat) ++ [z] ∧ z.packet = p
            ∧ z.origin = .link l.toNat ∧ (linkOf t l.toNat).occ.get p.vc.toNat = x.occ.get p.vc.toNat + 2)
          ∧ (isClassified s p = true → ∃ t, exec (.packetForward (.arrive l p)) s = .next t ∧ t.fab.waiting = s.fab.waiting ++ [.packet p (.link l.toNat)]
            ∧ t.fab.outputs = s.fab.outputs ∧ (linkOf t l.toNat).occ.get p.vc.toNat = x.occ.get p.vc.toNat + 2))
      ∧ (∀ p : Packet, runs → isUp → inDomain s p.ddev.toNat = false ∨ kindAdmits p.kind.toNat p.body = false →
        ∃ t, exec (.packetForward (.arrive l p)) s = .next t ∧ t.fab.outputs = s.fab.outputs ∧ t.cfe.ras.length = s.cfe.ras.length + 1)
      ∧ (∀ out : BitVec 6, out.toNat ≤ 36 → out.toNat ≠ 31 → (nextVc s out.toNat = none → exec (.packetForward (.depart out)) s = .next s)
        ∧ ∀ v q rest, runs → nextVc s out.toNat = some v → s.fab.outputs.get (8 * out.toNat + v) = q :: rest → q.group = [] → q.origin = .own →
          ∃ t, exec (.packetForward (.depart out)) s = .next t ∧ t.fab.outputs.get (8 * out.toNat + v) = rest
            ∧ (out.toNat < 30 → t.fab.departed = s.fab.departed ++ [q.packet] ∧ (linkOf t out.toNat).inFlight.get v = (linkOf s out.toNat).inFlight.get v + flits q.packet)
            ∧ (out.toNat = 30 → ∃ z, t.fab.outputs.get (8 * portOutput q.packet.dport + q.packet.vc.toNat) = s.fab.outputs.get (8 * portOutput q.packet.dport + q.packet.vc.toNat) ++ [z]
              ∧ z.packet = q.packet)
            ∧ (32 ≤ out.toNat → (∀ a, actOf s q.packet = some a → t.own.agenda = s.own.agenda ++ [a] ∧ t.fab.delivered = s.fab.delivered)
              ∧ (actOf s q.packet = none → t.own.agenda = s.own.agenda ∧ t.fab.delivered = s.fab.delivered ++ [q.packet])))
      ∧ (∀ f : List Byte, (isUp → controlFlitOk f = true → ∃ t, exec (.controlFlit l f) s = .next t ∧ ∀ v, v < 8 →
            (linkOf t l.toNat).limit.get v = (if (dword f 0).getLsbD 0 then controlField f 1 v else x.limit.get v)
              ∧ (linkOf t l.toNat).inFlight.get v = x.inFlight.get v - controlField f 3 v)
        ∧ (¬ isUp ∨ controlFlitOk f = false → exec (.controlFlit l f) s = .next s))
      ∧ (isUp → ∃ t, exec (.limitPeriod l) s = .next t ∧ (linkOf t l.toNat).target = targetsOf x.received ∧ (linkOf t l.toNat).received = []
        ∧ (linkOf t l.toNat).epoch = x.epoch + 1 ∧ (linkOf t l.toNat).flits.length = x.flits.length + 1)
      ∧ (∀ u : Table Nat, let sum (t : Table Nat) := ((List.range 8).map t.get).sum
        sum (targetsOf u) = 8192 ∧ (sum u ≠ 0 → ∀ v, v < 8 → v ≠ 3 → (targetsOf u).get v = 512 + 4096 * u.get v / sum u))
      ∧ (isUp → awaitsNothing → ∃ t, exec (.linkDown { dev := own, link := l }) s = .next t ∧ (linkOf t l.toNat).down = true ∧ (∀ v, v < 8 → t.fab.outputs.get (8 * l.toNat + v) = [])
        ∧ t.fab.reported = s.fab.reported ++ [l])
      ∧ (isUp → (x.replays + 1 < 16 → ∃ t, exec (.linkReplay l) s = .next t ∧ linkOf t l.toNat = { x with replays := x.replays + 1 })
        ∧ (15 ≤ x.replays → exec (.linkReplay l) s = exec (.linkDown { dev := own, link := l }) s))
      ∧ (isConnected s l.toNat = true → x.down = true → awaitsNothing → ∃ t, exec (.linkUp { dev := own, link := l }) s = .next t ∧ linkOf t l.toNat = { x with down := false, replays := 0 })
      ∧ (¬ isUp → exec (.limitPeriod l) s = .next s ∧ exec (.linkDown { dev := own, link := l }) s = .next s ∧ exec (.linkReplay l) s = .next s)
      ∧ (∀ d : BitVec 8, d.toNat ≠ ownDev s → awaitsNothing → ((d, l) ∉ s.fab.farDown → ∃ t, exec (.linkDown { dev := d, link := l }) s = .next t ∧ isDown t d.toNat l.toNat = true ∧ t.fab.links = s.fab.links)
        ∧ ((d, l) ∈ s.fab.farDown → ∃ t, exec (.linkUp { dev := d, link := l }) s = .next t ∧ (d, l) ∉ t.fab.farDown ∧ t.fab.links = s.fab.links))
      ∧ (∀ w, isGrandmaster s = true → exec (.ctrl (.time w)) s = .next s)
      ∧ (∀ w, runs → isGrandmaster s = false → s.cpu.poweredOff = false → ∃ t, exec (.ctrl (.time w)) s = .next t ∧ t.cpu.synced = true ∧ (s.cpu.synced = true → s.cpu.time.toNat ≤ t.cpu.time.toNat)
        ∧ (s.cpu.synced = false ∨ s.cpu.time.toNat ≤ w.toNat → t.cpu.time = w))
      ∧ (s.cfe.bootState = 2 → (∀ m, exec (.packetForward m) s = .next s) ∧ ∀ c, exec (.ctrl c) s = .next s)
      ∧ (∀ w0 w1, runs → ∃ t, exec (.ctrl (.switchError w0 w1)) s = .next t ∧ t.cfe.ras = s.cfe.ras ++ [[w0, w1, s.cpu.time, 0]])
      ∧ (∀ part w, runs → ∃ t, exec (.ctrl (.sliceAgreement part w)) s = .next t ∧ (∀ p ∈ t.cfe.partitions, p.id = part → p.slat = w) ∧ (isResident s part = true → t.cpu.slat = w))
      ∧ (startable s = [] ∨ freeSedge s = [] → exec .kernelInvoke s = .next s)
      ∧ (∀ p o c n, s.fab.waiting = [.packet p o] → startable s = [0] → freeSedge s = [n] → loadedClass s p.part p.flow = some c → p.body.length = 64 → hdrLevel (dword p.body 0) < 24 →
        (flowRecord s { part := p.part, cls := p.flow, fid := flowId c p }).isSome = true ∨ hasQuota s c = true →
        ∃ t i, exec .kernelInvoke s = .next t ∧ t.fab.waiting = [] ∧ t.fab.sedge.get n = some i ∧ i.cls = c ∧ i.packet = some p ∧ i.pc = 0 ∧ i.x.get 3 = 0 ∧ i.x.get 4 = 64
          ∧ i.x.get 5 = flowId c p ∧ (∀ r, r < 32 → r < 3 ∨ 5 < r → i.x.get r = 0) ∧ (flowRecord t { part := p.part, cls := p.flow, fid := flowId c p }).isSome = true)
      ∧ (∀ key : FlowKey, (timerDue s key = false → exec (.flowTimeout key) s = .next s)
        ∧ ∀ c, timerDue s key = true → loadedClass s key.part key.cls = some c → s.fab.waiting = [] → flowRuns s key = false →
          (c.timeout = 0 → ∃ t, exec (.flowTimeout key) s = .next t ∧ flowRecord t key = none)
            ∧ (c.timeout ≠ 0 → ∀ n rest, freeSedge s = n :: rest → ∃ t i, exec (.flowTimeout key) s = .next t ∧ t.fab.sedge.get n = some i ∧ i.timeout = true ∧ i.packet = none
              ∧ i.pc = BitVec.ofNat 64 (4 * c.timeout) ∧ i.x.get 3 = 1 ∧ i.x.get 4 = 0 ∧ i.x.get 5 = key.fid))
      ∧ (∀ p : BitVec 4, (s.fab.sedge.get p.toNat = none → exec (.deadline p) s = .next s)
        ∧ ∀ i, s.fab.sedge.get p.toNat = some i → (i.cycles < 2048 → exec (.deadline p) s = .next s)
          ∧ (2048 ≤ i.cycles → ∃ t, exec (.deadline p) s = .next t ∧ t.fab.sedge.get p.toNat = none))

/-! ## Host link, administrative commands, launches, bring-up -/

/-- The host link (R429 to R435, R448). A request is answered once: AWR and MWR with a WACK, ARD and MRD with a CPL
and its data, a malformed one with status 1, an unknown partition with 5, a failed translation with 2 or 3. A doorbell
sets the tail and the CFE reads commands; one that exceeds the ring stops the queue. A write into the aperture waits
while an earlier write of the host does. A completion record goes to its place in the ring. A held interrupt is sent.
While the link is down no request has an effect. That no request has an effect while the link is down, and that an AWR
or ARD at an address which is no multiple of 8 is malformed, are the model's choices (log entry 54). -/
def Obligations.HostRequests : Prop :=
  ∀ (s : State) (p : HtlPacket),
    let a := p.addr.toNat
    let n := p.len.toNat
    let reply (t : State) (type st : Nat) (body : List Byte) : State :=
      { t with cfe := { t.cfe with toHost := t.cfe.toHost ++ [{ type := BitVec.ofNat 6 type, part := 0, stat := BitVec.ofNat 4 st, tid := p.tid, len := BitVec.ofNat 9 body.length, rsvd := false, addr := 0, body := body }] } }
    let write := p.type = 1 ∧ p.part = 0 ∧ p.stat = 0 ∧ p.rsvd = false ∧ n = 8 ∧ a % 8 = 0 ∧ p.body.length = 8
    let read := p.type = 2 ∧ p.part = 0 ∧ p.stat = 0 ∧ p.rsvd = false ∧ n = 8 ∧ a % 8 = 0 ∧ p.body = []
    let v := dword p.body 0
    (s.cfe.hostDown = true → ∀ i ∈ [Instr.awr p, .ard p, .mwr p, .mrd p, .cpl p], exec i s = .next s)
      ∧ (s.cfe.hostDown = false → hostBlocked s = true → ∀ i ∈ [Instr.awr p, .mwr p], exec i s = .next (keep s (.hostPacket p)))
      ∧ (s.cfe.hostDown = false → (¬ read → exec (.ard p) s = .next (reply s 0x10 1 []))
          ∧ (read → a = 0x00 → exec (.ard p) s = .next (reply s 0x10 0 (toBytes 8 (readRegister s 0).toNat)))
          ∧ (read → a = 0x10 → exec (.ard p) s = .next (reply s 0x10 0 (toBytes 8 s.cfe.cfewd.toNat)))
          ∧ (read → a = 0x18 → exec (.ard p) s = .next (reply s 0x10 0 (toBytes 8 (BitVec.ofNat 64 s.cfe.pwrcap).toNat)))
          ∧ (read → a = 0x20 → exec (.ard p) s = .next (reply s 0x10 0 (toBytes 8 s.cfe.aqcring.toNat)))
          ∧ (memoryBad p 4 = true → exec (.mrd p) s = .next (reply s 0x10 1 [])) ∧ (memoryBad p 4 = false → partitionOf s p.part = none → exec (.mrd p) s = .next (reply s 0x10 5 []))
          ∧ (∀ q bs, memoryBad p 4 = false → partitionOf s p.part = some q → bs.length = n → .hostRead p ∉ s.mem.kept →
            (∀ i, i < n → ∃ l, partLeaf s q .read (a + i) = .ok l ∧ isHome s (leafLine l (leafPa l (a + i))) = true ∧ homePoisoned s (leafPa l (a + i)) = false
              ∧ homeByte s (leafKey l) (leafPa l (a + i)) = bs.getD i 0) →
            ∃ t, exec (.mrd p) s = .next t ∧ t.mem = s.mem ∧ t.cfe = (reply s 0x10 0 bs).cfe)
          ∧ (∀ q e, memoryBad p 4 = false → partitionOf s p.part = some q → partLeaf s q .read a = .error e → .hostRead p ∉ s.mem.kept →
            ∃ t, exec (.mrd p) s = .next t ∧ t.mem = s.mem ∧ t.cfe = (reply s 0x10 e []).cfe)
          ∧ (∀ q, memoryBad p 4 = false → partitionOf s p.part = some q → partMissing s q a n ≠ [] → ∃ t, exec (.mrd p) s = .next t ∧ t.cfe.toHost = s.cfe.toHost ∧ .hostRead p ∈ t.mem.kept))
      ∧ (s.cfe.hostDown = false → hostBlocked s = false →
        (¬ write → exec (.awr p) s = .next (reply s 0x11 1 []))
          ∧ (write → ∀ off : BitVec 12, a = off.toNat → off ≠ 0x20 → off ≠ 0x28 → off ≠ 0x30 →
            ∃ t, exec (.registerWrite off v) s = .next t ∧ exec (.awr p) s = .next (reply t 0x11 0 []))
          ∧ (write → ∀ off : BitVec 12, a = off.toNat → off = 0x20 ∨ off = 0x28 ∨ off = 0x30 →
            ∃ t, exec (.aqConfigWrite off v) s = .next t ∧ exec (.awr p) s = .next (reply t 0x11 0 []))
          ∧ (write → ∀ q : BitVec 8, a = 0x10000 + 8 * q.toNat → ∃ t, exec (.doorbell q v) s = .next t ∧ exec (.awr p) s = .next (reply t 0x11 0 []))
          ∧ ((memoryBad p 3 = true → exec (.mwr p) s = .next (reply s 0x11 1 []))
            ∧ (memoryBad p 3 = false → partitionOf s p.part = none → exec (.mwr p) s = .next (reply s 0x11 5 []))
            ∧ (∀ q e, memoryBad p 3 = false → partitionOf s p.part = some q → partLeaf s q .write a = .error e → exec (.mwr p) s = .next (reply s 0x11 e []))
            ∧ ∀ q l, memoryBad p 3 = false → partitionOf s p.part = some q → partLeaf s q .write a = .ok l →
              let pa := leafPa l a
              let waits := hostWaits s p.tid (hostPlaces l.word pa n)
              (waits = true → exec (.mwr p) s = .next (keep s (.hostWrite l.word pa p.body p.tid)))
                ∧ (waits = false → isHome s (leafLine l pa) = true → pa % 128 + n ≤ 128 → (∀ i, i < n → populated (pa + i) = true) → s.cpu.acks = [] → s.cfe.hostAcks = [] →
                  holdersOf s (leafLine l pa).line = [] → hasRoom s (leafLine l pa) →
                  ∃ t, exec (.mwr p) s = .next t ∧ homeBytes t (leafKey l) pa n = p.body ∧ writeAnswer p.tid 0 ∈ t.cfe.toHost ∧ t.cpu.frames = s.cpu.frames)))
      ∧ (hostBlocked s = true → ∀ (off : BitVec 12) (q : BitVec 8) (w : Word), exec (.registerWrite off w) s = .next (keep s (.hostAperture off.toNat w))
        ∧ exec (.aqConfigWrite off w) s = .next (keep s (.hostAperture off.toNat w)) ∧ exec (.doorbell q w) s = .next (keep s (.hostAperture (0x10000 + 8 * q.toNat) w)))
      ∧ (hostBlocked s = false → ∀ w : Word, exec (.registerWrite 0x10 w) s = .next { s with cfe := { s.cfe with cfewd := BitVec.ofNat 32 w.toNat } }
        ∧ exec (.registerWrite 0x08 w) s = .next { s with cfe := { s.cfe with hold := min 1000 (w.toNat / 2 ^ 16 % 2 ^ 10), coalesce := BitVec.ofNat 8 w.toNat } }
        ∧ exec (.registerWrite 0x18 w) s = .next (if 1000 ≤ w.toNat % 2 ^ 16 ∧ w.toNat % 2 ^ 16 ≤ 3000 then { s with cfe := { s.cfe with pwrcap := w.toNat % 2 ^ 16 } } else s)
        ∧ (adminIdle s = true → s.cfe.aqPending = [] → ∃ t, exec (.aqConfigWrite 0x20 w) s = .next t ∧ t.cfe.aqcring = w ∧ (adminQueue t).cring = w ∧ (adminQueue t).head = 0 ∧ (adminQueue t).tail = 0)
        ∧ (adminIdle s = true → s.cfe.aqPending = [] → ∃ t, exec (.aqConfigWrite 0x30 w) s = .next t ∧ t.cfe.aqVec = BitVec.ofNat 16 (w.toNat / 2 ^ 48)
          ∧ t.cfe.aqElog = (if 4 ≤ w.toNat % 32 ∧ w.toNat % 32 ≤ 16 then w.toNat % 32 else s.cfe.aqElog))
        ∧ (adminIdle s = false → exec (.aqConfigWrite 0x28 w) s = .next { s with cfe := { s.cfe with aqPending := s.cfe.aqPending ++ [(0x28, w)] } }))
      ∧ (hostBlocked s = false → ∀ (q : BitVec 8) (w : Word), (s.cfe.queues.get q.toNat = none → exec (.doorbell q w) s = .next s)
        ∧ ∀ x, s.cfe.queues.get q.toNat = some x → (x.stopped = true → exec (.doorbell q w) s = .next s)
          ∧ (x.stopped = false → 2 ^ 32 ≤ w.toNat ∨ 2 ^ x.elog < outstanding s q.toNat x (w.toNat % 2 ^ 32) → ∃ t y, exec (.doorbell q w) s = .next t ∧ t.cfe.queues.get q.toNat = some y ∧ y.stopped = true)
          ∧ (x.stopped = false → w.toNat < 2 ^ 32 → outstanding s q.toNat x w.toNat ≤ 2 ^ x.elog → (∀ f ∈ s.cfe.fetches, f.1 ≠ q.toNat) → x.head ≠ w.toNat →
            ∃ t, exec (.doorbell q w) s = .next t ∧ t.cfe.queues.get q.toNat = some { x with tail := w.toNat }
              ∧ t.cfe.toHost = s.cfe.toHost ++ [{ type := 9, part := 0, stat := 0, tid := freeTid s, len := 64, rsvd := false, addr := x.cring + BitVec.ofNat 64 (64 * (x.head % 2 ^ x.elog)), body := [] }]))
      ∧ (∀ q r x, s.cfe.hostDown = false → s.cfe.fetches = [(q, r)] → r.tid = p.tid → r.want = 64 → r.got = [] → r.failed = false → q ≠ 0 → s.cfe.queues.get q = some x →
        p.type = 0x10 → p.part = 0 → p.stat = 0 → p.rsvd = false → n = 64 → p.body.length = 64 → (x.head + 1) % 2 ^ 32 = x.tail →
        ∃ t, exec (.cpl p) s = .next t ∧ t.cfe.fetches = [] ∧ t.cfe.queues.get q = some { x with head := x.tail, commands := x.commands ++ [p.body] })
      ∧ (∀ (q : Nat) x (tag : BitVec 32) (st : Nat) (w : Word), q < 256 → st < 2 ^ 16 → s.cfe.queues.get q = some x →
        ∃ rest, (complete s q tag st w).cfe.toHost
          = s.cfe.toHost ++ hostPacket 8 (x.pring + BitVec.ofNat 64 (16 * (x.written % 2 ^ x.elog))) (toBytes 8 (st * 2 ^ 48 + q * 2 ^ 32 + tag.toNat) ++ toBytes 8 w.toNat) :: rest
          ∧ (s.cfe.hold ≠ 0 → x.unreported + 1 < s.cfe.coalesce.toNat → rest = []) ∧ (s.cfe.hold = 0 → rest.length = 1 ∧ ∀ r ∈ rest, r.type = 0x0A))
      ∧ (∀ (q : BitVec 8) x, s.cfe.queues.get q.toNat = some x →
        (x.unreported ≠ 0 → x.oldest + 1000 * s.cfe.hold ≤ s.cfe.age → ∃ t y, exec (.interruptHold q) s = .next t ∧ t.cfe.toHost.length = s.cfe.toHost.length + 1
            ∧ t.cfe.queues.get q.toNat = some y ∧ y.unreported = 0)
          ∧ (x.unreported = 0 → exec (.interruptHold q) s = .next s))
      ∧ exec .hostLinkDown s = .next { s with cfe := { s.cfe with hostDown := true } }

/-- The administrative commands (R225, R378, R392, R423, R436 to R440, R445, R450): in minimal mode all but FWLOAD
complete with NOTMIN, a bit of an operand word that a command does not list with BADCMD, and so does an operand out of
range; else each has its effect and completes with OK. The model's choices are VERIFY 1 at offset 0 for a bad header,
BADCMD for an unreadable table and RETIRE of a retired rank (log entry 55), the registers that PCREATE writes (log
entry 56), the engines that FENCE resets (log entry 57) and the memory that FWLOAD empties (log entry 60). -/
def Obligations.AdminCommands : Prop :=
  ∀ (s : State) (c bs : List Byte),
    let w (i : Nat) := commandWord c i
    let x := (w 1).toNat
    let done (i : Instr) (st : Nat) (v : Word) := ∃ t, exec i s = .next t ∧ AdminEnds s t st v
    let qBits : List Word := [0xFFFF003F1FFF, -1, -1, -1]
    let q := x % 2 ^ 8
    let elog := x / 2 ^ 8 % 2 ^ 5
    let id : BitVec 6 := BitVec.ofNat 6 x
    let code := halvesOf (bs.drop 16)
    (∀ p ∈ [(Instr.qcreate, 1), (.qdestroy, 2), (.pcreate, 3), (.pslice, 4), (.loadqp, 5), (.loadfc, 6), (.fenceCmd, 7), (.retire, 8), (.rasring, 9), (.peat, 10), (.watch, 11), (.manifest, 12), (.fwload, 13), (.wring, 14)],
        (s.cfe.command = none → (adminQueue s).commands = [] → exec p.1 s = .next s)
          ∧ (∀ rest, s.cfe.command = none → (adminQueue s).commands = c :: rest → commandOp c = p.2 →
            exec p.1 s = exec p.1 (setQueue { s with cfe := { s.cfe with command := some c, read := none } } 0 (some { adminQueue s with commands := rest })))
          ∧ (s.cfe.command = some c → commandOp c = p.2 → (p.2 = 13 ↔ s.cfe.bootState ≠ 2) → done p.1 12 0)
          ∧ (s.cfe.command = some c → commandOp c = p.2 → (p.2 = 13 ↔ s.cfe.bootState = 2) → w 7 ≠ 0 → done p.1 1 0))
      ∧ (AdminRuns s c 1 qBits →
        let bad := q = 0 ∨ (s.cfe.queues.get q).isSome = true ∨ elog < 4 ∨ 16 < elog ∨ partitionOf s (BitVec.ofNat 6 (x / 2 ^ 16)) = none ∨ (w 2).toNat % 64 ≠ 0 ∨ (w 3).toNat % 16 ≠ 0
        (bad → done .qcreate 1 0)
          ∧ (¬ bad → HasRead s bs → ∀ n, programLength bs = some n → 16 + 4 * n ≤ bs.length →
            (∀ k m, verify true code [0] = .passes k m → ∃ t y, exec .qcreate s = .next t ∧ AdminEnds s t 0 0 ∧ t.cfe.queues.get q = some y ∧ y.prog = code ∧ y.elog = elog
                ∧ y.cring = w 2 ∧ y.pring = w 3 ∧ y.part = BitVec.ofNat 6 (x / 2 ^ 16) ∧ y.head = 0 ∧ y.tail = 0 ∧ y.stopped = false ∧ y.memory = [])
              ∧ ∀ r o, verify true code [0] = .fails r o → done .qcreate 8 (BitVec.ofNat 64 (r * 2 ^ 56) ||| BitVec.ofNat 64 o))
          ∧ (¬ bad → HasRead s bs → programLength bs = none → done .qcreate 8 (BitVec.ofNat 64 (2 ^ 56))))
      ∧ (AdminRuns s c 2 [0xFF] → ((userQueue s q).isSome = true → ∃ t, exec .qdestroy s = .next t ∧ AdminEnds s t 0 0 ∧ t.cfe.queues.get q = none
            ∧ (∀ n r, n < 32 → t.cfe.slots.get n = some r → r.queue ≠ q) ∧ ∀ v ∈ t.cfe.waiters, v.run.queue ≠ q)
        ∧ (userQueue s q = none → done .qdestroy 1 0))
      ∧ (AdminRuns s c 3 [0x3F, -1] → (w 2).toNat % 64 = 0 → HasRead s bs →
        (blockBad id.toNat bs = true → done .pcreate 1 0) ∧ (blockBad id.toNat bs = false → blockConflicts s id bs = true → done .pcreate 9 0)
          ∧ (blockBad id.toNat bs = false → blockConflicts s id bs = false → ∃ t p, exec .pcreate s = .next t ∧ AdminEnds s t 0 0 ∧ partitionOf t id = some p
            ∧ p.partid = dword bs 0 ∧ p.fhand = dword bs 1 ∧ p.keymask = dword bs 2 ∧ p.xroot = dword bs 3 ∧ p.prect = blockRects bs
            ∧ ((usedRects p.prect).any (fun r => inRect r s.cpu.coreId) = true → s.cpu.away = false → t.cpu.partid = p.partid ∧ t.cpu.xroot = p.xroot)))
      ∧ (AdminRuns s c 4 [0x1073F, -1, 0xFFFFFE00000, 0xFFFF00FFFFFF] → (partitionOf s id = none → done .pslice 1 0)
        ∧ ∀ p, partitionOf s id = some p → ∃ t y, exec .pslice s = .next t ∧ AdminEnds s t 0 0 ∧ partitionOf t id = some y ∧ y.slat = w 2 ∧ y.sliceOn = (w 1).getLsbD 16
          ∧ y.rlog = BitVec.ofNat 3 (x / 2 ^ 8) ∧ y.area.toNat = (w 3).toNat ∧ y.lvkeep = BitVec.ofNat 24 (w 4).toNat ∧ y.lmkeep = BitVec.ofNat 16 ((w 4).toNat / 2 ^ 32) ∧ y.prect = p.prect)
      ∧ (AdminRuns s c 5 [0xFF, -1] → (userQueue s q = none → done .loadqp 1 0)
        ∧ ∀ y n k m, userQueue s q = some y → HasRead s bs → programLength bs = some n → 16 + 4 * n ≤ bs.length → verify true code [0] = .passes k m →
          ∃ t sets, exec .loadqp s = .next t ∧ AdminEnds s t 0 0 ∧ t.cfe.queues.get q = some { y with prog := code, sets := sets, loaded := true })
      ∧ (AdminRuns s c 6 [0xFF, -1] → inDomain s q = true → HasRead s bs →
        let r := dword bs 0
        let part : BitVec 6 := BitVec.ofNat 6 (r.toNat / 2 ^ 42)
        let cls : BitVec 8 := BitVec.ofNat 8 (r.toNat / 2 ^ 48)
        let mat : BitVec 48 := BitVec.ofNat 48 (dword bs 1).toNat
        (classBad s bs = true → done .loadfc 1 0)
          ∧ (classBad s bs = false → (s.fab.classes.any fun e => decide (e.1 = part) && decide (e.2.1 = mat) && decide (e.2.2 ≠ cls)) = true → done .loadfc 9 0)
          ∧ ∀ p, classBad s bs = false → (s.fab.classes.any fun e => decide (e.1 = part) && decide (e.2.1 = mat) && decide (e.2.2 ≠ cls)) = false → partitionOf s part = some p →
            let ka := (dword bs 2).toNat
            let ta := (dword bs 3).toNat
            let size := r.toNat % 2 ^ 16
            let miss := (partMissing s p ka (8 + 4 * ((kernelHeader s p ka).map (·.1)).getD 0) ++ partMissing s p ta size).eraseDups
            (miss ≠ [] → exec .loadfc s = .next (requestOnce s miss))
            ∧ (miss = [] → readKernel s p ka = none → done .loadfc 8 (BitVec.ofNat 64 (2 ^ 56)))
            ∧ ∀ words toff, miss = [] → readKernel s p ka = some (words, toff) →
              (∀ reason o, verify false words (if toff = 0 then [0] else [0, toff]) = .fails reason o → done .loadfc 8 (BitVec.ofNat 64 (reason * 2 ^ 56) ||| BitVec.ofNat 64 o))
              ∧ (∀ k m, verify false words (if toff = 0 then [0] else [0, toff]) = .passes k m → readTable s p ta size = none → done .loadfc 1 0)
              ∧ ∀ k m tbl bad, verify false words (if toff = 0 then [0] else [0, toff]) = .passes k m → readTable s p ta size = some (tbl, bad) →
                ∃ t, exec .loadfc s = .next t ∧ t.cfe.command = none ∧ (part, mat, cls) ∈ t.fab.classes ∧ hostPacket 8 (w 2 + 48) (budgetBytes k m) ∈ t.cfe.toHost
                  ∧ (q = ownDev s → ∃ y, loadedClass t part cls = some y ∧ y.code = words ∧ y.timeout = toff ∧ y.table = tbl ∧ y.recs = r.toNat / 2 ^ 37 % 2 ^ 5 ∧ y.tmo = r.toNat / 2 ^ 16 % 2 ^ 16))
      ∧ (AdminRuns s c 7 [0x3F03] → (39 < x / 2 ^ 8 → done .fenceCmd 1 0)
        ∧ (x / 2 ^ 8 ≤ 39 → ∃ t, exec .fenceCmd s = .next t ∧ t.cfe.command = none ∧ t.cfe.fenced.getLsbD (40 * (x % 4) + x / 2 ^ 8) = true
          ∧ (clusterOf s.cpu.coreId = 40 * (x % 4) + x / 2 ^ 8 → t.cpu.poweredOff = true ∧ t.eng = Engines.reset)))
      ∧ (AdminRuns s c 8 [0xFFFFFFFF, 0x3FF] → (gangOf s (BitVec.ofNat 32 x) = none → done .retire 1 0)
        ∧ ∀ g, gangOf s (BitVec.ofNat 32 x) = some g →
          (rankCount g.rect ≤ (w 2).toNat ∨ (w 2).toNat ∈ g.retired → done .retire 1 0)
            ∧ ((w 2).toNat < rankCount g.rect → (w 2).toNat ∉ g.retired → ∃ t, exec .retire s = .next t ∧ t.cfe.command = none ∧ { g with retired := g.retired ++ [(w 2).toNat] } ∈ t.cfe.gangs
              ∧ (rankCore g.rect (w 2).toNat = s.cpu.coreId → isResident s g.part = true → isOwnGang s g = true → t.cpu.member = false)))
      ∧ (AdminRuns s c 9 [0xF, -1, -1] →
        (x ≤ 12 → (w 2).toNat % 4096 = 0 → (w 3).toNat % 8 = 0 → ∃ t, exec .rasring s = .next t ∧ AdminEnds s t 0 0 ∧ t.cfe.rasRing = some { addr := w 2, slog := x, tailw := w 3, count := 0 })
          ∧ (12 < x ∨ (w 2).toNat % 4096 ≠ 0 ∨ (w 3).toNat % 8 ≠ 0 → done .rasring 1 0))
      ∧ (AdminRuns s c 14 [0xF03, -1, -1] →
        (x / 2 ^ 8 ≤ 12 → (w 2).toNat % 4096 = 0 → (w 3).toNat % 8 = 0 → ∃ t, exec .wring s = .next t ∧ AdminEnds s t 0 0
            ∧ t.cfe.watchRings.get (x % 4) = some { addr := w 2, slog := x / 2 ^ 8, tailw := w 3, count := 0 } ∧ ∀ d, d ≠ x % 4 → t.cfe.watchRings.get d = s.cfe.watchRings.get d)
          ∧ (12 < x / 2 ^ 8 ∨ (w 2).toNat % 4096 ≠ 0 ∨ (w 3).toNat % 8 ≠ 0 → done .wring 1 0))
      ∧ (AdminRuns s c 10 [0xFFFFFFFF0000033F, 0x7FFFFFFFFFFFFF, -1] →
        let bad := x / 2 ^ 8 % 4 = 3 ∨ (w 2).toNat % 65536 ≠ 0 ∨ (w 3).toNat % 65536 ≠ 0 ∨ (w 3).toNat < 131072
        (partitionOf s id = none ∨ bad → done .peat 1 0)
          ∧ ∀ p, partitionOf s id = some p → ¬ bad →
            let y : Partition := { p with peat := BitVec.ofNat 2 (x / 2 ^ 8), replim := BitVec.ofNat 32 (x / 2 ^ 32), logVa := w 2, logSize := w 3 }
            x / 2 ^ 8 % 4 ≠ 2 ∨ streamMissing (flushStreams s id) y = [] →
            ∃ t, exec .peat s = .next t ∧ t.cfe.command = none ∧ partitionOf t id = some y
              ∧ (x / 2 ^ 8 % 4 = 2 → ∀ d ∈ t.cfe.diverged, d.part ≠ id) ∧ (isResident s id = true → t.cpu.peatcfg.toNat = x / 2 ^ 32 * 2 ^ 32 + x / 2 ^ 8 % 4))
      ∧ (AdminRuns s c 11 [0x73F03, 0xFFFFFFFFFF8, 0x1FFFFCF] → ∃ t y, exec .watch s = .next t ∧ t.cfe.command = none ∧ y ∈ t.cfe.comparators ∧ y.die.toNat = x % 4
        ∧ y.slice.toNat = x / 2 ^ 8 % 64 ∧ y.comp.toNat = x / 2 ^ 16 ∧ y.waddr = w 2
        ∧ (let line : BitVec 37 := BitVec.ofNat 37 ((w 2).toNat / 128)
           y.wcfg.getLsbD 24 = true ↔ (w 3).getLsbD 24 = true ∧ (w 2).toNat / 8 % 16 + (w 3).toNat % 16 ≤ 15 ∧ homeDie line = x % 4 ∧ homeSlice line = x / 2 ^ 8 % 64))
      ∧ (AdminRuns s c 12 [0xFFFF, -1] → (w 2).toNat % 16 = 0 → (x = 0 → done .manifest 0 0x10000)
        ∧ (x ≠ 0 → HasRead s bs → manifestEntries bs = configured s → done .manifest 0 0))
      ∧ (s.cfe.command = some c → commandOp c = 13 → s.cfe.bootState = 2 → (∀ i, 1 < i → i < 7 → w (i + 1) = 0) → x < 2 ^ 32 →
        (x = 0 ∨ 64 * 2 ^ 20 < x → done .fwload 1 0)
          ∧ (0 < x → x ≤ 64 * 2 ^ 20 → HasRead s bs → ∃ t, exec .fwload s = .next t ∧ t.cfe.image = bs ∧ t.cfe.fails = 0 ∧ t.cfe.bootState = 0 ∧ t.cfe.partitions = []
            ∧ t.mem = Mem.reset ∧ t.eng = Engines.reset ∧ t.cpu = { Core.reset with coreId := s.cpu.coreId }))

/-- Queue programs, gangs and bring-up (R441 to R451). A free slot takes the next queue's command, or a waiter whose
signal came; a long wait is reported. The first launch that waits is refused with its reason, or becomes a gang whose
cores have their constants; a gang that has ended is removed and its command completes; a die's agent takes a chunk,
or half of another's. A start runs the device or fails, and the third failure in a row enters minimal mode; a hot
die's clock falls by a step. The model's choices are that memory is empty after a failed start (log entry 60), that
the quiescence of other cores is taken from GANG_END (log entry 67), that a launching command has one completion (log
entry 65), and what a cycle of waits is (log entry 68). -/
def Obligations.LaunchAndBringUp : Prop :=
  ∀ s : State,
    (freeSlots s = [] → exec .queueProgramInvoke s = .next s)
      ∧ (∀ n rest, freeSlots s = n :: rest →
        (∀ q y c cs, (∀ v ∈ s.cfe.waiters, v.ready = false) → nextQueue s = some q → s.cfe.queues.get q = some y → y.commands = c :: cs →
            ∃ t r, exec .queueProgramInvoke s = .next t ∧ t.cfe.slots.get n = some r ∧ r.queue = q ∧ r.command = c ∧ r.prog = y.prog ∧ r.pc = 0 ∧ r.x.get 3 = BitVec.ofNat 64 q
              ∧ r.x.get 4 = BitVec.ofNat 64 y.taken ∧ (∀ j, j ≠ 3 → j ≠ 4 → r.x.get j = 0) ∧ r.scratch = [] ∧ t.cfe.queues.get q = some { y with commands := cs, busy := true })
          ∧ (∀ v vs, nextQueue s = none → s.cfe.waiters = v :: vs → v.ready = true →
            ∃ t, exec .queueProgramInvoke s = .next t ∧ t.cfe.slots.get n = some v.run ∧ t.cfe.waiters = vs)
          ∧ (nextQueue s = none → (∀ v ∈ s.cfe.waiters, v.ready = false) → exec .queueProgramInvoke s = .next s))
      ∧ (∀ (q : BitVec 8) v, s.cfe.waiters.find? (fun u => decide (u.run.queue = q.toNat)) = some v →
        (waitIsLong s v = false → exec (.parkqTimeout q) s = .next s)
          ∧ (waitIsLong s v = true → ∃ (u : State) (x : Word), exec (.parkqTimeout q) s = .next (complete u 0 0 (if cycleOf s q.toNat = [] then 5 else 4) x)
            ∧ u.cfe.queues = s.cfe.queues ∧ u.cfe.toHost = s.cfe.toHost ∧ (cycleOf s q.toNat = [] → x = BitVec.ofNat 64 q.toNat) ∧ { v with examined := true } ∈ u.cfe.waiters))
      ∧ (s.cfe.launches = [] → exec .gangLaunch s = .next s)
      ∧ (∀ l rest, s.cfe.launches = l :: rest →
        let left := { s with cfe := { s.cfe with launches := rest } }
        let rect := dword l.header 2
        (headerFault s l ≠ 0 → exec .gangLaunch s = .next (completeOwed left l.queue l.index l.tag 6 (BitVec.ofNat 64 (headerFault s l))))
          ∧ (23 < headerField l.header 4 1 → headerFault s l = 1)
          ∧ (headerField l.header 4 1 ≤ 23 → rectUsable rect = false ∨ rect.getLsbD 63 = true ∨ rect.toNat / 2 ^ 24 % 2 ^ 8 ≠ ownDev s → headerFault s l = 2)
          ∧ (headerField l.header 4 1 ≤ 23 → rectUsable rect = true → rect.getLsbD 63 = false → rect.toNat / 2 ^ 24 % 2 ^ 8 = ownDev s → (∃ k ∈ rectCores rect, isFencedCore s k = true ∨ inGang s k = true) → headerFault s l = 3)
          ∧ (headerFault s l = 0 → launchMissing s l ≠ [] → exec .gangLaunch s = .next (requestOnce s (launchMissing s l)))
          ∧ (headerFault s l = 0 → launchMissing s l = [] → launchBlocks s l = none → exec .gangLaunch s = .next (completeOwed (launchUsed left l) l.queue l.index l.tag 6 4))
          ∧ (∀ consts payload, headerFault s l = 0 → launchMissing s l = [] → launchBlocks s l = some (consts, payload) →
            ∃ t g, exec .gangLaunch s = .next t ∧ t.cfe.launches = rest ∧ t.cfe.gangs = s.cfe.gangs ++ [g] ∧ g.id = l.gang ∧ g.part = l.part ∧ g.rect = rect ∧ g.queue = l.queue ∧ g.index = l.index ∧ g.tag = l.tag
              ∧ g.retired = [] ∧ (l.range = false → g.ranges = [])
              ∧ (inRect rect s.cpu.coreId = true → s.cpu.coreId.toNat / 2 ^ 4 % 2 ^ 4 ≤ 9 → t.cpu.member = true ∧ t.cpu.bar = [] ∧ getLocals t (ownKey s 0) 1536 = consts)))
      ∧ (∀ id, (gangOf s id = none → exec (.gangEnd id) s = .next s)
        ∧ ∀ g, gangOf s id = some g →
          (isOwnGang s g = false → savedRank s g = none → (∀ r ∈ g.ranges, r.next = r.fin) →
              exec (.gangEnd id) s = .next (completeOwed { s with cfe := { s.cfe with gangs := s.cfe.gangs.filter fun x => decide (x.id ≠ id) } } g.queue g.index g.tag (if g.fenced then 7 else 0) (id.zeroExtend 64)))
            ∧ (isOwnGang s g = true → isQuiescent s = false → exec (.gangEnd id) s = .next s)
            ∧ (∀ c, savedRank s g = some c → savedQuiescent s g.part c = false → exec (.gangEnd id) s = .next s)
            ∧ ((∃ r ∈ g.ranges, r.next ≠ r.fin) → exec (.gangEnd id) s = .next s))
      ∧ (∀ (q i : Nat) x tag st v, s.cfe.queues.get q = some x → (i ∉ x.owed → completeOwed s q i tag st v = s)
        ∧ (i ∈ x.owed → x.owed.Nodup → ∃ y, (completeOwed s q i tag st v).cfe.queues.get q = some y ∧ i ∉ y.owed ∧ y.written = x.written + 1))
      ∧ (∀ die : BitVec 2, ((∀ g ∈ s.cfe.gangs, ∀ r ∈ g.ranges, r.die ≠ die) → exec (.rangeChunkTake die) s = .next s)
        ∧ ∀ g r, s.cfe.gangs = [g] → r.die = die → idleCores s g die.toNat ≠ [] →
          (g.ranges = [r] → r.next ≠ r.fin → ∃ t, exec (.rangeChunkTake die) s = .next t
              ∧ t.cfe.gangs = [{ g with ranges := [{ r with next := r.next + BitVec.ofNat 64 (min g.chunk.toNat (r.fin.toNat - r.next.toNat)) }] }])
            ∧ (∀ v, g.ranges = [r, v] → v.die ≠ die → r.next = r.fin → 0 < g.chunk.toNat → 0 < chunksLeft g v → peatModeOf s g.part ≠ 2 →
              let m := chunksLeft g v
              let cut := v.next + BitVec.ofNat 64 ((m - (m + 1) / 2) * g.chunk.toNat)
              ∃ t, exec (.rangeChunkTake die) s = .next t ∧ t.cfe.gangs = [{ g with ranges := [{ r with next := cut, fin := v.fin }, { v with fin := cut }] }]))
      ∧ (s.cfe.bootState ≠ 0 → exec .powerOn s = .next s ∧ exec .bootReadyTimeout s = .next s)
      ∧ (s.cfe.bootState = 0 →
        let failed (t : State) := t.cfe.fails = min 3 (s.cfe.fails + 1) ∧ t.cfe.bootState = (if 2 ≤ s.cfe.fails then 2 else 0) ∧ t.mem = Mem.reset ∧ t.cpu = { Core.reset with coreId := s.cpu.coreId }
        (∃ t, exec .powerOn s = .next t ∧ (t.cfe.bootState = 1 ∧ t.cfe.fails = 0 ∨ failed t ∧ 1 ≤ t.cfe.bootReason.toNat ∧ t.cfe.bootReason.toNat ≤ 7))
          ∧ ∃ t, exec .bootReadyTimeout s = .next t ∧ failed t ∧ t.cfe.bootReason = 6)
      ∧ (∀ die : BitVec 2, (∃ t, exec (.thermalThrottle die true) s = .next t ∧ t.cfe.throttle.get die.toNat = min 19 (s.cfe.throttle.get die.toNat + 1) ∧ t.cpu = s.cpu)
        ∧ ∃ t, exec (.thermalThrottle die false) s = .next t ∧ t.cfe.throttle.get die.toNat = s.cfe.throttle.get die.toNat - 1 ∧ t.cpu = s.cpu)
end

