-- ==== Sys2Proof/Laws/Table.lean ====
section
/-! SUPPORT. The laws of tables: a read after a write, and that a write keeps the canonical form. -/

namespace Sys2Proof

variable {α : Type}

/-- A removed key reads as the default. -/
theorem Table.get_remove_self [Inhabited α] (t : Table α) (k : Nat) : (t.remove k).get k = default := by
  induction t with
  | nil => rfl
  | cons p t ih =>
    rw [Table.remove]
    split
    · exact ih
    · rw [Table.get, if_neg (by assumption), ih]

/-- Removing a key changes no other. -/
theorem Table.get_remove_ne [Inhabited α] (t : Table α) {k j : Nat} (h : j ≠ k) : (t.remove k).get j = t.get j := by
  induction t with
  | nil => rfl
  | cons p t ih =>
    rw [Table.remove, Table.get]
    split
    · rw [ih, if_neg (by omega)]
    · rw [Table.get, ih]

/-- A key placed in a table without it reads as the placed value. -/
theorem Table.get_place_self [Inhabited α] (t : Table α) (k : Nat) (v : α) : ((t.remove k).place k v).get k = v := by
  induction t with
  | nil => simp [Table.remove, Table.place, Table.get]
  | cons p t ih =>
    rw [Table.remove]
    split
    · exact ih
    · rw [Table.place]
      split
      · simp [Table.get]
      · rw [Table.get, if_neg (by assumption), ih]

/-- Placing a key changes no other. -/
theorem Table.get_place_ne [Inhabited α] (t : Table α) {k j : Nat} (v : α) (h : j ≠ k) : (t.place k v).get j = t.get j := by
  induction t with
  | nil => simp [Table.place, Table.get, h]
  | cons p t ih =>
    rw [Table.place]
    split
    · rw [Table.get, if_neg h]
    · rw [Table.get, Table.get, ih]

variable [Inhabited α] [DecidableEq α]

/-- A read of the key just written gives the value written. -/
@[simp] theorem Table.get_set_self (t : Table α) (k : Nat) (v : α) : (t.set k v).get k = v := by
  rw [Table.set]
  split
  · rw [Table.get_remove_self]; exact (by assumption : v = default).symm
  · exact Table.get_place_self t k v

/-- A write leaves every other key alone. -/
theorem Table.get_set_ne (t : Table α) {k j : Nat} (v : α) (h : j ≠ k) : (t.set k v).get j = t.get j := by
  rw [Table.set]
  split
  · exact Table.get_remove_ne t h
  · rw [Table.get_place_ne _ v h, Table.get_remove_ne t h]

/-- A read after a write. -/
theorem Table.get_set (t : Table α) (k j : Nat) (v : α) : (t.set k v).get j = if j = k then v else t.get j := by
  split
  · subst j; exact Table.get_set_self t k v
  · exact Table.get_set_ne t v (by assumption)

/-- A canonical form above a key is one above any lower key. -/
theorem Table.wfAbove_of_lt {t : Table α} {i : Nat} {m : Option Nat} (h : Table.wfAbove (some i) t = true)
    (hm : ∀ j, m = some j → j < i) : Table.wfAbove m t = true := by
  cases t with
  | nil => rfl
  | cons p t =>
    simp only [Table.wfAbove, Bool.and_eq_true, decide_eq_true_eq] at h ⊢
    refine ⟨⟨?_, h.1.2⟩, h.2⟩
    cases m with
    | none => rfl
    | some j => exact decide_eq_true (Nat.lt_trans (hm j rfl) h.1.1)

/-- Removing a key keeps the canonical form. -/
theorem Table.wfAbove_remove {t : Table α} {m : Option Nat} (k : Nat) (h : Table.wfAbove m t = true) :
    Table.wfAbove m (t.remove k) = true := by
  induction t generalizing m with
  | nil => rfl
  | cons p t ih =>
    simp only [Table.wfAbove, Bool.and_eq_true, decide_eq_true_eq] at h
    rw [Table.remove]
    split
    · refine Table.wfAbove_of_lt (ih h.2) fun j hj => ?_
      subst hj; simpa using h.1.1
    · simp only [Table.wfAbove, Bool.and_eq_true, decide_eq_true_eq]
      exact ⟨h.1, ih h.2⟩

/-- Placing a value that is not the default at a free key keeps the canonical form. -/
theorem Table.wfAbove_place {t : Table α} {m : Option Nat} {k : Nat} {v : α} (hv : v ≠ default)
    (hm : ∀ j, m = some j → j < k) (h : Table.wfAbove m t = true) : Table.wfAbove m ((t.remove k).place k v) = true := by
  induction t generalizing m with
  | nil => cases m <;> simp_all [Table.remove, Table.place, Table.wfAbove]
  | cons p t ih =>
    have ht := h
    simp only [Table.wfAbove, Bool.and_eq_true, decide_eq_true_eq] at h
    rw [Table.remove]
    split
    · refine ih hm (Table.wfAbove_of_lt h.2 fun j hj => ?_)
      subst hj; simpa using h.1.1
    · rename_i hne
      rw [Table.place]
      split
      · rename_i hlt
        have hr := Table.wfAbove_remove k h.2
        simp only [Table.wfAbove, Bool.and_eq_true, decide_eq_true_eq]
        refine ⟨⟨?_, hv⟩, ⟨hlt, h.1.2⟩, hr⟩
        cases m with
        | none => rfl
        | some j => exact decide_eq_true (hm j rfl)
      · simp only [Table.wfAbove, Bool.and_eq_true, decide_eq_true_eq]
        exact ⟨h.1, ih (fun j hj => by injection hj with e; omega) h.2⟩

/-- A write keeps the canonical form. -/
theorem Table.wf_set {t : Table α} (h : t.wf = true) (k : Nat) (v : α) : (t.set k v).wf = true := by
  rw [Table.set]
  split
  · exact Table.wfAbove_remove k h
  · exact Table.wfAbove_place (by assumption) (fun _ hj => by cases hj) h

/-- A part of a canonical table, chosen by key or value, is canonical. -/
theorem Table.wfAbove_filter {t : Table α} {m : Option Nat} (p : Nat × α → Bool) (h : Table.wfAbove m t = true) :
    Table.wfAbove m (t.filter p) = true := by
  induction t generalizing m with
  | nil => rfl
  | cons q t ih =>
    simp only [Table.wfAbove, Bool.and_eq_true, decide_eq_true_eq] at h
    rw [List.filter_cons]
    split
    · simp only [Table.wfAbove, Bool.and_eq_true, decide_eq_true_eq]
      exact ⟨h.1, ih h.2⟩
    · refine Table.wfAbove_of_lt (ih h.2) fun j hj => ?_
      subst hj; simpa using h.1.1
theorem Table.wf_filter {t : Table α} (h : t.wf = true) (p : Nat × α → Bool) : Table.wf (t.filter p) = true :=
  Table.wfAbove_filter p h

/-- The empty table is canonical. -/
theorem Table.wf_nil : Table.wf ([] : Table α) = true := rfl

end Sys2Proof
end

