-- ==== Sys2Proof/Laws/State.lean ====
section
/-! SUPPORT. What each update of a register leaves alone, one lemma for each component of the state, and
what a read of a register gives after each update. -/

namespace Sys2Proof.Machine

/-! ## Components that an update leaves alone -/

@[simp] theorem putX_mem (s : State) (i : Nat) (v : Word) : (putX s i v).mem = s.mem := by unfold putX; (repeat' split) <;> rfl
@[simp] theorem putX_eng (s : State) (i : Nat) (v : Word) : (putX s i v).eng = s.eng := by unfold putX; (repeat' split) <;> rfl
@[simp] theorem putX_net (s : State) (i : Nat) (v : Word) : (putX s i v).net = s.net := by unfold putX; (repeat' split) <;> rfl
@[simp] theorem putX_dbg (s : State) (i : Nat) (v : Word) : (putX s i v).dbg = s.dbg := by unfold putX; (repeat' split) <;> rfl
@[simp] theorem putX_contexts (s : State) (i : Nat) (v : Word) : (putX s i v).contexts = s.contexts := by unfold putX; (repeat' split) <;> rfl
@[simp] theorem putX_own (s : State) (i : Nat) (v : Word) : (putX s i v).own = s.own := by unfold putX; (repeat' split) <;> rfl
@[simp] theorem writeX_mem (s : State) (i : Reg) (v : Word) : (writeX s i v).mem = s.mem := by unfold writeX; split <;> simp
@[simp] theorem writeX_eng (s : State) (i : Reg) (v : Word) : (writeX s i v).eng = s.eng := by unfold writeX; split <;> simp
@[simp] theorem writeX_net (s : State) (i : Reg) (v : Word) : (writeX s i v).net = s.net := by unfold writeX; split <;> simp
@[simp] theorem writeX_dbg (s : State) (i : Reg) (v : Word) : (writeX s i v).dbg = s.dbg := by unfold writeX; split <;> simp
@[simp] theorem writeX_contexts (s : State) (i : Reg) (v : Word) : (writeX s i v).contexts = s.contexts := by unfold writeX; split <;> simp
@[simp] theorem writeX_own (s : State) (i : Reg) (v : Word) : (writeX s i v).own = s.own := by unfold writeX; split <;> simp
@[simp] theorem writePc_mem (s : State) (v : Word) : (writePc s v).mem = s.mem := by unfold writePc; (repeat' split) <;> rfl
@[simp] theorem writePc_eng (s : State) (v : Word) : (writePc s v).eng = s.eng := by unfold writePc; (repeat' split) <;> rfl
@[simp] theorem writePc_net (s : State) (v : Word) : (writePc s v).net = s.net := by unfold writePc; (repeat' split) <;> rfl
@[simp] theorem writePc_dbg (s : State) (v : Word) : (writePc s v).dbg = s.dbg := by unfold writePc; (repeat' split) <;> rfl
@[simp] theorem writePc_contexts (s : State) (v : Word) : (writePc s v).contexts = s.contexts := by unfold writePc; (repeat' split) <;> rfl
@[simp] theorem writePc_own (s : State) (v : Word) : (writePc s v).own = s.own := by unfold writePc; (repeat' split) <;> rfl
@[simp] theorem writeV_mem (s : State) (i : Nat) (x : BitVec 512) : (writeV s i x).mem = s.mem := by unfold writeV; (repeat' split) <;> rfl
@[simp] theorem writeV_eng (s : State) (i : Nat) (x : BitVec 512) : (writeV s i x).eng = s.eng := by unfold writeV; (repeat' split) <;> rfl
@[simp] theorem writeV_net (s : State) (i : Nat) (x : BitVec 512) : (writeV s i x).net = s.net := by unfold writeV; (repeat' split) <;> rfl
@[simp] theorem writeV_dbg (s : State) (i : Nat) (x : BitVec 512) : (writeV s i x).dbg = s.dbg := by unfold writeV; (repeat' split) <;> rfl
@[simp] theorem writeV_contexts (s : State) (i : Nat) (x : BitVec 512) : (writeV s i x).contexts = s.contexts := by unfold writeV; (repeat' split) <;> rfl
@[simp] theorem writeV_own (s : State) (i : Nat) (x : BitVec 512) : (writeV s i x).own = s.own := by unfold writeV; (repeat' split) <;> rfl
@[simp] theorem writeK_mem (s : State) (i : Nat) (x : Word) : (writeK s i x).mem = s.mem := by unfold writeK; (repeat' split) <;> rfl
@[simp] theorem writeK_eng (s : State) (i : Nat) (x : Word) : (writeK s i x).eng = s.eng := by unfold writeK; (repeat' split) <;> rfl
@[simp] theorem writeK_net (s : State) (i : Nat) (x : Word) : (writeK s i x).net = s.net := by unfold writeK; (repeat' split) <;> rfl
@[simp] theorem writeK_dbg (s : State) (i : Nat) (x : Word) : (writeK s i x).dbg = s.dbg := by unfold writeK; (repeat' split) <;> rfl
@[simp] theorem writeK_contexts (s : State) (i : Nat) (x : Word) : (writeK s i x).contexts = s.contexts := by unfold writeK; (repeat' split) <;> rfl
@[simp] theorem writeK_own (s : State) (i : Nat) (x : Word) : (writeK s i x).own = s.own := by unfold writeK; (repeat' split) <;> rfl
@[simp] theorem writeFpctl_mem (s : State) (x : Word) : (writeFpctl s x).mem = s.mem := by unfold writeFpctl; (repeat' split) <;> rfl
@[simp] theorem writeFpctl_eng (s : State) (x : Word) : (writeFpctl s x).eng = s.eng := by unfold writeFpctl; (repeat' split) <;> rfl
@[simp] theorem writeFpctl_net (s : State) (x : Word) : (writeFpctl s x).net = s.net := by unfold writeFpctl; (repeat' split) <;> rfl
@[simp] theorem writeFpctl_dbg (s : State) (x : Word) : (writeFpctl s x).dbg = s.dbg := by unfold writeFpctl; (repeat' split) <;> rfl
@[simp] theorem writeFpctl_contexts (s : State) (x : Word) : (writeFpctl s x).contexts = s.contexts := by unfold writeFpctl; (repeat' split) <;> rfl
@[simp] theorem writeFpctl_own (s : State) (x : Word) : (writeFpctl s x).own = s.own := by unfold writeFpctl; (repeat' split) <;> rfl
@[simp] theorem writeE_mem (s : State) (i : Nat) (x : Word) : (writeE s i x).mem = s.mem := by rfl
@[simp] theorem writeE_eng (s : State) (i : Nat) (x : Word) : (writeE s i x).eng = s.eng := by rfl
@[simp] theorem writeE_net (s : State) (i : Nat) (x : Word) : (writeE s i x).net = s.net := by rfl
@[simp] theorem writeE_dbg (s : State) (i : Nat) (x : Word) : (writeE s i x).dbg = s.dbg := by rfl
@[simp] theorem writeE_fab (s : State) (i : Nat) (x : Word) : (writeE s i x).fab = s.fab := by rfl
@[simp] theorem writeE_cfe (s : State) (i : Nat) (x : Word) : (writeE s i x).cfe = s.cfe := by rfl
@[simp] theorem writeE_contexts (s : State) (i : Nat) (x : Word) : (writeE s i x).contexts = s.contexts := by rfl
@[simp] theorem writeE_own (s : State) (i : Nat) (x : Word) : (writeE s i x).own = s.own := by rfl
@[simp] theorem writeG_mem (s : State) (i : Nat) (x : BitVec 256) : (writeG s i x).mem = s.mem := by rfl
@[simp] theorem writeG_eng (s : State) (i : Nat) (x : BitVec 256) : (writeG s i x).eng = s.eng := by rfl
@[simp] theorem writeG_net (s : State) (i : Nat) (x : BitVec 256) : (writeG s i x).net = s.net := by rfl
@[simp] theorem writeG_dbg (s : State) (i : Nat) (x : BitVec 256) : (writeG s i x).dbg = s.dbg := by rfl
@[simp] theorem writeG_fab (s : State) (i : Nat) (x : BitVec 256) : (writeG s i x).fab = s.fab := by rfl
@[simp] theorem writeG_cfe (s : State) (i : Nat) (x : BitVec 256) : (writeG s i x).cfe = s.cfe := by rfl
@[simp] theorem writeG_contexts (s : State) (i : Nat) (x : BitVec 256) : (writeG s i x).contexts = s.contexts := by rfl
@[simp] theorem writeG_own (s : State) (i : Nat) (x : BitVec 256) : (writeG s i x).own = s.own := by rfl
@[simp] theorem writeTile_mem (s : State) (l t : Nat) (x : List (BitVec 32)) : (writeTile s l t x).mem = s.mem := by rfl
@[simp] theorem writeTile_eng (s : State) (l t : Nat) (x : List (BitVec 32)) : (writeTile s l t x).eng = s.eng := by rfl
@[simp] theorem writeTile_net (s : State) (l t : Nat) (x : List (BitVec 32)) : (writeTile s l t x).net = s.net := by rfl
@[simp] theorem writeTile_dbg (s : State) (l t : Nat) (x : List (BitVec 32)) : (writeTile s l t x).dbg = s.dbg := by rfl
@[simp] theorem writeTile_fab (s : State) (l t : Nat) (x : List (BitVec 32)) : (writeTile s l t x).fab = s.fab := by rfl
@[simp] theorem writeTile_cfe (s : State) (l t : Nat) (x : List (BitVec 32)) : (writeTile s l t x).cfe = s.cfe := by rfl
@[simp] theorem writeTile_contexts (s : State) (l t : Nat) (x : List (BitVec 32)) : (writeTile s l t x).contexts = s.contexts := by rfl
@[simp] theorem writeTile_own (s : State) (l t : Nat) (x : List (BitVec 32)) : (writeTile s l t x).own = s.own := by rfl
@[simp] theorem countEvent_mem (s : State) (e n : Nat) : (countEvent s e n).mem = s.mem := by rfl
@[simp] theorem countEvent_eng (s : State) (e n : Nat) : (countEvent s e n).eng = s.eng := by rfl
@[simp] theorem countEvent_net (s : State) (e n : Nat) : (countEvent s e n).net = s.net := by rfl
@[simp] theorem countEvent_dbg (s : State) (e n : Nat) : (countEvent s e n).dbg = s.dbg := by rfl
@[simp] theorem countEvent_fab (s : State) (e n : Nat) : (countEvent s e n).fab = s.fab := by rfl
@[simp] theorem countEvent_cfe (s : State) (e n : Nat) : (countEvent s e n).cfe = s.cfe := by rfl
@[simp] theorem countEvent_contexts (s : State) (e n : Nat) : (countEvent s e n).contexts = s.contexts := by rfl
@[simp] theorem countEvent_own (s : State) (e n : Nat) : (countEvent s e n).own = s.own := by rfl
@[simp] theorem dropUsed_cpu (s : State)  : (dropUsed s).cpu = s.cpu := by rfl
@[simp] theorem dropUsed_eng (s : State)  : (dropUsed s).eng = s.eng := by rfl
@[simp] theorem dropUsed_net (s : State)  : (dropUsed s).net = s.net := by rfl
@[simp] theorem dropUsed_dbg (s : State)  : (dropUsed s).dbg = s.dbg := by rfl
@[simp] theorem dropUsed_fab (s : State)  : (dropUsed s).fab = s.fab := by rfl
@[simp] theorem dropUsed_cfe (s : State)  : (dropUsed s).cfe = s.cfe := by rfl
@[simp] theorem dropUsed_contexts (s : State)  : (dropUsed s).contexts = s.contexts := by rfl
@[simp] theorem dropUsed_own (s : State)  : (dropUsed s).own = s.own := by rfl
@[simp] theorem dropUsed_lmem (s : State) : (dropUsed s).mem.lmem = s.mem.lmem := by rfl
@[simp] theorem dropUsed_lpoison (s : State) : (dropUsed s).mem.lpoison = s.mem.lpoison := by rfl
@[simp] theorem dropUsed_pmem (s : State) : (dropUsed s).mem.pmem = s.mem.pmem := by rfl
@[simp] theorem dropUsed_ppoison (s : State) : (dropUsed s).mem.ppoison = s.mem.ppoison := by rfl
@[simp] theorem dropUsed_pkey (s : State) : (dropUsed s).mem.pkey = s.mem.pkey := by rfl
@[simp] theorem dropUsed_unknown (s : State) : (dropUsed s).mem.unknown = s.mem.unknown := by rfl
@[simp] theorem dropUsed_stashcfgs (s : State) : (dropUsed s).mem.stashcfgs = s.mem.stashcfgs := by rfl
@[simp] theorem dropUsed_l2 (s : State) : (dropUsed s).mem.l2 = s.mem.l2 := by rfl
@[simp] theorem dropUsed_buffer (s : State) : (dropUsed s).mem.buffer = s.mem.buffer := by rfl
@[simp] theorem dropUsed_stash (s : State) : (dropUsed s).mem.stash = s.mem.stash := by rfl
@[simp] theorem dropUsed_plru (s : State) : (dropUsed s).mem.plru = s.mem.plru := by rfl
@[simp] theorem dropUsed_grants (s : State) : (dropUsed s).mem.grants = s.mem.grants := by rfl
@[simp] theorem dropUsed_dir (s : State) : (dropUsed s).mem.dir = s.mem.dir := by rfl
@[simp] theorem dropUsed_kept (s : State) : (dropUsed s).mem.kept = s.mem.kept := by rfl
@[simp] theorem dropUsed_tlb (s : State) : (dropUsed s).mem.tlb = s.mem.tlb := by rfl
@[simp] theorem dropUsed_invs (s : State) : (dropUsed s).mem.invs = s.mem.invs := by rfl
@[simp] theorem retire_eng (s : State)  : (retire s).eng = s.eng := by unfold retire; split <;> simp
@[simp] theorem retire_net (s : State)  : (retire s).net = s.net := by unfold retire; split <;> simp
@[simp] theorem retire_dbg (s : State)  : (retire s).dbg = s.dbg := by unfold retire; split <;> simp
@[simp] theorem retire_fab (s : State)  : (retire s).fab = s.fab := by unfold retire; split <;> simp
@[simp] theorem retire_cfe (s : State)  : (retire s).cfe = s.cfe := by unfold retire; split <;> simp
@[simp] theorem retire_contexts (s : State)  : (retire s).contexts = s.contexts := by unfold retire; split <;> simp
@[simp] theorem retire_own (s : State)  : (retire s).own = s.own := by unfold retire; split <;> simp
@[simp] theorem retire_lmem (s : State) : (retire s).mem.lmem = s.mem.lmem := by unfold retire; split <;> simp
@[simp] theorem retire_lpoison (s : State) : (retire s).mem.lpoison = s.mem.lpoison := by unfold retire; split <;> simp
@[simp] theorem retire_pmem (s : State) : (retire s).mem.pmem = s.mem.pmem := by unfold retire; split <;> simp
@[simp] theorem retire_ppoison (s : State) : (retire s).mem.ppoison = s.mem.ppoison := by unfold retire; split <;> simp
@[simp] theorem retire_pkey (s : State) : (retire s).mem.pkey = s.mem.pkey := by unfold retire; split <;> simp
@[simp] theorem retire_unknown (s : State) : (retire s).mem.unknown = s.mem.unknown := by unfold retire; split <;> simp
@[simp] theorem retire_stashcfgs (s : State) : (retire s).mem.stashcfgs = s.mem.stashcfgs := by unfold retire; split <;> simp
@[simp] theorem retire_l2 (s : State) : (retire s).mem.l2 = s.mem.l2 := by unfold retire; split <;> simp
@[simp] theorem retire_buffer (s : State) : (retire s).mem.buffer = s.mem.buffer := by unfold retire; split <;> simp
@[simp] theorem retire_stash (s : State) : (retire s).mem.stash = s.mem.stash := by unfold retire; split <;> simp
@[simp] theorem retire_plru (s : State) : (retire s).mem.plru = s.mem.plru := by unfold retire; split <;> simp
@[simp] theorem retire_grants (s : State) : (retire s).mem.grants = s.mem.grants := by unfold retire; split <;> simp
@[simp] theorem retire_dir (s : State) : (retire s).mem.dir = s.mem.dir := by unfold retire; split <;> simp
@[simp] theorem retire_kept (s : State) : (retire s).mem.kept = s.mem.kept := by unfold retire; split <;> simp
@[simp] theorem retire_tlb (s : State) : (retire s).mem.tlb = s.mem.tlb := by unfold retire; split <;> simp
@[simp] theorem retire_invs (s : State) : (retire s).mem.invs = s.mem.invs := by unfold retire; split <;> simp
@[simp] theorem draw_cpu (s : State) (n : Nat) : ((draw s n).2).cpu = s.cpu := by rfl
@[simp] theorem draw_mem (s : State) (n : Nat) : ((draw s n).2).mem = s.mem := by rfl
@[simp] theorem draw_eng (s : State) (n : Nat) : ((draw s n).2).eng = s.eng := by rfl
@[simp] theorem draw_net (s : State) (n : Nat) : ((draw s n).2).net = s.net := by rfl
@[simp] theorem draw_dbg (s : State) (n : Nat) : ((draw s n).2).dbg = s.dbg := by rfl
@[simp] theorem draw_fab (s : State) (n : Nat) : ((draw s n).2).fab = s.fab := by rfl
@[simp] theorem draw_cfe (s : State) (n : Nat) : ((draw s n).2).cfe = s.cfe := by rfl
@[simp] theorem draw_contexts (s : State) (n : Nat) : ((draw s n).2).contexts = s.contexts := by rfl
@[simp] theorem putLocal_eng (s : State) (k : Nat) (bs : List Byte) : (putLocal s k bs).eng = s.eng := by rfl
@[simp] theorem putLocal_net (s : State) (k : Nat) (bs : List Byte) : (putLocal s k bs).net = s.net := by rfl
@[simp] theorem putLocal_dbg (s : State) (k : Nat) (bs : List Byte) : (putLocal s k bs).dbg = s.dbg := by rfl
@[simp] theorem putLocal_fab (s : State) (k : Nat) (bs : List Byte) : (putLocal s k bs).fab = s.fab := by rfl
@[simp] theorem putLocal_cfe (s : State) (k : Nat) (bs : List Byte) : (putLocal s k bs).cfe = s.cfe := by rfl
@[simp] theorem putLocal_contexts (s : State) (k : Nat) (bs : List Byte) : (putLocal s k bs).contexts = s.contexts := by rfl
@[simp] theorem putLocal_own (s : State) (k : Nat) (bs : List Byte) : (putLocal s k bs).own = s.own := by rfl
@[simp] theorem setDir_cpu (s : State) (l : BitVec 37) (d : DirEntry) : (setDir s l d).cpu = s.cpu := by rfl
@[simp] theorem setDir_eng (s : State) (l : BitVec 37) (d : DirEntry) : (setDir s l d).eng = s.eng := by rfl
@[simp] theorem setDir_net (s : State) (l : BitVec 37) (d : DirEntry) : (setDir s l d).net = s.net := by rfl
@[simp] theorem setDir_dbg (s : State) (l : BitVec 37) (d : DirEntry) : (setDir s l d).dbg = s.dbg := by rfl
@[simp] theorem setDir_fab (s : State) (l : BitVec 37) (d : DirEntry) : (setDir s l d).fab = s.fab := by rfl
@[simp] theorem setDir_cfe (s : State) (l : BitVec 37) (d : DirEntry) : (setDir s l d).cfe = s.cfe := by rfl
@[simp] theorem setDir_contexts (s : State) (l : BitVec 37) (d : DirEntry) : (setDir s l d).contexts = s.contexts := by rfl
@[simp] theorem setDir_own (s : State) (l : BitVec 37) (d : DirEntry) : (setDir s l d).own = s.own := by rfl
@[simp] theorem setGrant_cpu (s : State) (g : Grant) : (setGrant s g).cpu = s.cpu := by rfl
@[simp] theorem setGrant_eng (s : State) (g : Grant) : (setGrant s g).eng = s.eng := by rfl
@[simp] theorem setGrant_net (s : State) (g : Grant) : (setGrant s g).net = s.net := by rfl
@[simp] theorem setGrant_dbg (s : State) (g : Grant) : (setGrant s g).dbg = s.dbg := by rfl
@[simp] theorem setGrant_fab (s : State) (g : Grant) : (setGrant s g).fab = s.fab := by rfl
@[simp] theorem setGrant_cfe (s : State) (g : Grant) : (setGrant s g).cfe = s.cfe := by rfl
@[simp] theorem setGrant_contexts (s : State) (g : Grant) : (setGrant s g).contexts = s.contexts := by rfl
@[simp] theorem setGrant_own (s : State) (g : Grant) : (setGrant s g).own = s.own := by rfl

/-! ## The core's fields that an update leaves alone -/

/-- A write of a register or of the pc changes nothing of the core but its frames and its trap frame. -/
theorem writeX_cpu (s : State) (i : Reg) (v : Word) :
    (writeX s i v).cpu = { s.cpu with frames := (writeX s i v).cpu.frames, trap := (writeX s i v).cpu.trap } := by
  unfold writeX putX; (repeat' split) <;> rfl

theorem writePc_cpu (s : State) (v : Word) :
    (writePc s v).cpu = { s.cpu with frames := (writePc s v).cpu.frames, trap := (writePc s v).cpu.trap } := by
  unfold writePc; (repeat' split) <;> rfl

/-- Retirement changes nothing of the core but RETIRED and the counters. -/
theorem retire_cpu (s : State) :
    (retire s).cpu = { s.cpu with retired := (retire s).cpu.retired, cnt := (retire s).cpu.cnt } := by
  unfold retire; split <;> rfl

theorem countEvent_cpu (s : State) (e n : Nat) : (countEvent s e n).cpu = { s.cpu with cnt := (countEvent s e n).cpu.cnt } := rfl

@[simp] theorem retire_frames (s : State) : (retire s).cpu.frames = s.cpu.frames := by rw [retire_cpu]
@[simp] theorem retire_trap (s : State) : (retire s).cpu.trap = s.cpu.trap := by rw [retire_cpu]
@[simp] theorem countEvent_frames (s : State) (e n : Nat) : (countEvent s e n).cpu.frames = s.cpu.frames := rfl
@[simp] theorem countEvent_trap (s : State) (e n : Nat) : (countEvent s e n).cpu.trap = s.cpu.trap := rfl

/-! ## Reads after writes -/

/-- A read of the running window depends only on the window. -/
theorem readX_of_window {s t : State} (h : window t = window s) (i : Reg) : readX t i = readX s i := by
  unfold readX; rw [h]

@[simp] theorem retire_window (s : State) : window (retire s) = window s := by unfold window; simp
@[simp] theorem writePc_window (s : State) (v : Word) : window (writePc s v) = window s := by
  cases h : s.own.turn with
  | core => cases ht : s.cpu.trap <;> cases hf : s.cpu.frames <;> simp [writePc, window, h, ht, hf]
  | sedge n => cases hi : s.fab.sedge.get n <;> simp [writePc, window, h, hi]
  | cfe n => cases hr : s.cfe.slots.get n <;> simp [writePc, window, h, hr]
@[simp] theorem putX_readPc (s : State) (i : Nat) (v : Word) : readPc (putX s i v) = readPc s := by
  cases h : s.own.turn with
  | core => cases ht : s.cpu.trap <;> cases hf : s.cpu.frames <;> simp [putX, readPc, h, ht, hf]
  | sedge n => cases hi : s.fab.sedge.get n <;> simp [putX, readPc, h, hi]
  | cfe n => cases hr : s.cfe.slots.get n <;> simp [putX, readPc, h, hr]
@[simp] theorem writeX_readPc (s : State) (i : Reg) (v : Word) : readPc (writeX s i v) = readPc s := by
  unfold writeX; split <;> simp
@[simp] theorem retire_readPc (s : State) : readPc (retire s) = readPc s := by unfold readPc; simp
@[simp] theorem retire_readX (s : State) (i : Reg) : readX (retire s) i = readX s i := readX_of_window (retire_window s) i
@[simp] theorem writePc_readX (s : State) (v : Word) (i : Reg) : readX (writePc s v) i = readX s i :=
  readX_of_window (writePc_window s v) i

/-- A read of x0 gives zero. -/
@[simp] theorem readX_zero (s : State) : readX s 0 = 0 := rfl

/-- An assignment to x0 has no effect. -/
@[simp] theorem writeX_zero (s : State) (v : Word) : writeX s 0 v = s := rfl

/-- The window after a write. -/
theorem putX_window {s : State} (hr : Running s) (i : Nat) (v : Word) : window (putX s i v) = (window s).set i v := by
  cases h : s.own.turn with
  | core =>
    cases ht : s.cpu.trap with
    | some t => simp [putX, window, h, ht]
    | none => cases hf : s.cpu.frames <;> simp_all [putX, window, Running]
  | sedge n => cases hi : s.fab.sedge.get n <;> simp_all [putX, window, Running]
  | cfe n => cases hc : s.cfe.slots.get n <;> simp_all [putX, window, Running]

/-- The pc after a write. -/
theorem writePc_readPc {s : State} (hr : Running s) (v : Word) : readPc (writePc s v) = v := by
  cases h : s.own.turn with
  | core =>
    cases ht : s.cpu.trap with
    | some t => simp [writePc, readPc, h, ht]
    | none => cases hf : s.cpu.frames <;> simp_all [writePc, readPc, Running]
  | sedge n => cases hi : s.fab.sedge.get n <;> simp_all [writePc, readPc, Running]
  | cfe n => cases hc : s.cfe.slots.get n <;> simp_all [writePc, readPc, Running]

/-- X(d) := v, read back: x0 stays zero, and no other register changes. -/
theorem writeX_readX {s : State} (hr : Running s) (d r : Reg) (v : Word) :
    readX (writeX s d v) r = if r = 0 then 0 else if r = d then v else readX s r := by
  unfold writeX
  by_cases hd : d = 0
  · subst hd; unfold readX; by_cases h0 : r = 0 <;> simp_all
  · rw [if_neg hd]
    unfold readX
    by_cases h0 : r = 0
    · simp [h0]
    · rw [if_neg h0, if_neg h0, if_neg h0, putX_window hr, Table.get_set]
      by_cases hrd : r = d
      · simp [hrd]
      · rw [if_neg hrd, if_neg fun e => hrd (BitVec.eq_of_toNat_eq e)]

/-- A write keeps a processor running. -/
theorem putX_running {s : State} (hr : Running s) (i : Nat) (v : Word) : Running (putX s i v) := by
  cases h : s.own.turn with
  | core =>
    cases ht : s.cpu.trap with
    | some t => simp [putX, Running, h, ht]
    | none => cases hf : s.cpu.frames <;> simp_all [putX, Running]
  | sedge n => cases hi : s.fab.sedge.get n <;> simp_all [putX, Running]
  | cfe n => cases hc : s.cfe.slots.get n <;> simp_all [putX, Running]
theorem writeX_running {s : State} (hr : Running s) (i : Reg) (v : Word) : Running (writeX s i v) := by
  unfold writeX; split
  · exact hr
  · exact putX_running hr _ _

end Sys2Proof.Machine
end

