-- ==== Sys2Proof/Laws/Memory.lean ====
section
/-! SUPPORT. The memory operations: a read after a write, what a write leaves alone, and that every operation keeps
the canonical form. -/

namespace Sys2Proof.Machine

/-! ## Runs of bytes in a table -/

theorem putBytes_wf {t : Table Byte} (h : t.wf = true) (k : Nat) (bs : List Byte) : (putBytes t k bs).wf = true := by
  induction bs generalizing t k with
  | nil => exact h
  | cons b bs ih => exact ih (Table.wf_set h k b) (k + 1)

theorem get_putBytes (t : Table Byte) (k : Nat) (bs : List Byte) (j : Nat) :
    (putBytes t k bs).get j = if k ≤ j ∧ j < k + bs.length then bs.getD (j - k) 0 else t.get j := by
  induction bs generalizing t k with
  | nil => rw [putBytes, if_neg (by simp)]
  | cons b bs ih =>
    rw [putBytes, ih, Table.get_set]
    by_cases h1 : j = k
    · subst h1; rw [if_neg (by omega), if_pos rfl, if_pos (by simp)]; simp
    · by_cases h2 : k + 1 ≤ j ∧ j < k + 1 + bs.length
      · rw [if_pos h2, if_pos (by simp; omega)]
        obtain ⟨m, rfl⟩ : ∃ m, j = k + 1 + m := ⟨j - (k + 1), by omega⟩
        have e1 : k + 1 + m - (k + 1) = m := by omega
        have e2 : k + 1 + m - k = m + 1 := by omega
        rw [e1, e2]; rfl
      · rw [if_neg h2, if_neg h1, if_neg (by simp; omega)]

/-! ## Local memory -/

/-- A key lies in a run of unknown content. -/
def Unknown.holds (u : Unknown) (j : Nat) : Bool := decide (u.first ≤ j) && decide (j < u.last)

/-- A write of bytes makes exactly their keys known. -/
theorem known_find (l : List Unknown) (k n j : Nat) (f : Nat → Bool → Byte) :
    ((known l k n).find? fun u => u.holds j).map (fun u => f u.draw u.live)
      = if k ≤ j ∧ j < k + n then none else (l.find? fun u => u.holds j).map fun u => f u.draw u.live := by
  unfold known
  by_cases hn : n = 0
  · rw [if_pos hn, if_neg (by omega)]
  · rw [if_neg hn]
    induction l with
    | nil => simp
    | cons u l ih =>
      rw [List.flatMap_cons, List.find?_append, Option.map_or, ih]
      by_cases hj : k ≤ j ∧ j < k + n
      · rw [if_pos hj, if_pos hj, Option.or_none, Option.map_eq_none_iff, List.find?_eq_none]
        intro x hx
        split at hx
        · rename_i h; simp only [List.mem_singleton] at hx; subst hx; simp [Unknown.holds] at h ⊢; omega
        · simp only [List.mem_append] at hx
          rcases hx with hx | hx <;> (split at hx <;> simp at hx; subst hx; simp [Unknown.holds]; omega)
      · rw [if_neg hj, if_neg hj, List.find?_cons]
        by_cases hu : u.holds j = true
        · rw [hu]; simp [Unknown.holds] at hu
          split
          · simp [Unknown.holds, hu]
          · rename_i h; simp at h
            by_cases hlt : j < k
            · have : u.first < k := by omega
              simp [this, Unknown.holds, hu.1, hlt]
            · have : k + n < u.last := by omega
              have h2 : ¬ (j < k) := hlt
              have h3 : k + n ≤ j := by omega
              by_cases h1 : u.first < k <;> simp [h1, this, Unknown.holds, h2, h3, hu.2]
        · simp only [Bool.not_eq_true] at hu
          rw [hu]
          have : (List.find? (fun u => u.holds j)
              (if (decide (k + n ≤ u.first) || decide (u.last ≤ k)) = true then [u]
              else (if u.first < k then [{ u with last := k }] else []) ++ (if k + n < u.last then [{ u with first := k + n }] else []))) = none := by
            rw [List.find?_eq_none]
            intro x hx
            split at hx
            · simp only [List.mem_singleton] at hx; subst hx; simp [hu]
            · have hu2 : ¬ (u.first ≤ j ∧ j < u.last) := by simpa [Unknown.holds] using hu
              simp only [List.mem_append] at hx
              rename_i hm
              simp at hm
              rcases hx with hx | hx <;> (split at hx <;> simp at hx; subst hx; simp [Unknown.holds]; omega)
          rw [this]; simp

theorem getLocal_putLocal (s : State) (k : Nat) (bs : List Byte) (j : Nat) :
    getLocal (putLocal s k bs) j = if k ≤ j ∧ j < k + bs.length then bs.getD (j - k) 0 else getLocal s j := by
  have h := known_find s.mem.unknown k bs.length j fun d live => if live then Config.stashDataByte s.own.tick j else Config.stashByte d j
  unfold getLocal unknownByte
  simp only [Unknown.holds] at h
  simp only [putLocal, get_putBytes]
  rw [h]
  split <;> simp

@[simp] theorem putLocal_pmem (s : State) (k : Nat) (bs : List Byte) : (putLocal s k bs).mem.pmem = s.mem.pmem := rfl
@[simp] theorem putLocal_frames (s : State) (k : Nat) (bs : List Byte) : (putLocal s k bs).cpu.frames = s.cpu.frames := rfl

theorem putLocal_inv {s : State} (h : s.Inv) (k : Nat) (bs : List Byte) : (putLocal s k bs).Inv := by
  simp only [State.Inv, Mem.wf, Bool.and_eq_true] at h ⊢
  exact ⟨putBytes_wf h.1 k bs, h.2⟩

/-! ## Home memory -/

@[simp] theorem rasWrite_mem (s : State) (w : List Word) : (rasWrite s w).mem = s.mem := by
  unfold rasWrite; dsimp only; split <;> rfl
@[simp] theorem rasWrite_cpu (s : State) (w : List Word) : (rasWrite s w).cpu = s.cpu := by
  unfold rasWrite; dsimp only; split <;> rfl
@[simp] theorem rasWrite_fab (s : State) (w : List Word) : (rasWrite s w).fab = s.fab := by
  unfold rasWrite; dsimp only; split <;> rfl
@[simp] theorem rasWrite_own (s : State) (w : List Word) : (rasWrite s w).own = s.own := by
  unfold rasWrite; dsimp only; split <;> rfl
theorem rasWrite_ras (s : State) (w : List Word) : (rasWrite s w).cfe.ras = s.cfe.ras ++ [w] := by
  unfold rasWrite; dsimp only; split <;> rfl
@[simp] theorem rasRecord_mem (s : State) (k u : Nat) (p : BitVec 6) (i : Nat) (a : Word) : (rasRecord s k u p i a).mem = s.mem := rasWrite_mem _ _
@[simp] theorem rasRecord_cpu (s : State) (k u : Nat) (p : BitVec 6) (i : Nat) (a : Word) : (rasRecord s k u p i a).cpu = s.cpu := rasWrite_cpu _ _
@[simp] theorem rasRecord_fab (s : State) (k u : Nat) (p : BitVec 6) (i : Nat) (a : Word) : (rasRecord s k u p i a).fab = s.fab := rasWrite_fab _ _
@[simp] theorem rasRecord_own (s : State) (k u : Nat) (p : BitVec 6) (i : Nat) (a : Word) : (rasRecord s k u p i a).own = s.own := rasWrite_own _ _

theorem rekey_inv {s : State} (h : s.Inv) (key : BitVec 6) (line : Nat) : (rekey s key line).Inv := by
  simp only [State.Inv, Mem.wf, Bool.and_eq_true] at h ⊢
  unfold rekey
  split
  · exact h
  · exact ⟨h.1, putBytes_wf h.2 _ _⟩

@[simp] theorem rekey_lmem (s : State) (key : BitVec 6) (line : Nat) : (rekey s key line).mem.lmem = s.mem.lmem := by
  unfold rekey; split <;> rfl
theorem rekey_pkey (s : State) (key : BitVec 6) (line : Nat) : (rekey s key line).mem.pkey.get line = key := by
  unfold rekey; split
  · assumption
  · exact Table.get_set_self _ _ _

theorem putHome_inv {s : State} (h : s.Inv) (key : BitVec 6) (pa : Nat) (bs : List Byte) : (putHome s key pa bs).Inv := by
  unfold putHome
  split
  · exact h
  · have h2 := rekey_inv h key (pa / 128)
    simp only [State.Inv, Mem.wf, Bool.and_eq_true, noteEntries] at h2 ⊢
    exact ⟨h2.1, putBytes_wf h2.2 pa bs⟩

@[simp] theorem putHome_lmem (s : State) (key : BitVec 6) (pa : Nat) (bs : List Byte) : (putHome s key pa bs).mem.lmem = s.mem.lmem := by
  unfold putHome
  split
  · rfl
  · exact rekey_lmem s key _

/-- A run of local memory that becomes unknown keeps the canonical form. -/
theorem forget_inv {s : State} (h : s.Inv) (first last : Nat) (live : Bool) : (forget s first last live).Inv := by
  simp only [State.Inv, Mem.wf, Bool.and_eq_true] at h ⊢
  unfold forget
  split
  · exact h
  · exact ⟨Table.wf_filter h.1 _, h.2⟩

/-- A byte written to a populated line under a key reads back under that key (R207, R212). -/
theorem homeByte_putHome {s : State} {key : BitVec 6} {pa i : Nat} {bs : List Byte} (hp : populated pa = true) (hi : i < bs.length)
    (hl : pa % 128 + i < 128) : homeByte (putHome s key pa bs) key (pa + i) = bs.getD i 0 := by
  have hne : bs.isEmpty = false := by cases bs <;> simp_all
  have hline : (pa + i) / 128 = pa / 128 := by omega
  have hk : (putHome s key pa bs).mem.pkey.get (pa / 128) = key := by
    simp only [putHome, noteEntries, hne, hp, Bool.not_true, Bool.or_self, Bool.false_eq_true, if_false]
    exact rekey_pkey s key (pa / 128)
  unfold homeByte
  rw [hline]
  simp only [hk, if_true]
  simp only [putHome, noteEntries, hne, hp, Bool.not_true, Bool.or_self, Bool.false_eq_true, if_false, get_putBytes]
  rw [if_pos ⟨by omega, by omega⟩]
  congr 1; omega

/-! ## Replay (R390) -/

/-- A change that leaves the replay streams alone takes its choices in order. -/
theorem replayInOrder_of_eq {s t : State} (h : t.cfe.replay = s.cfe.replay) : replayInOrder s t = true := by
  simp [replayInOrder, h]

/-! ## Watchpoints (R380) -/

/-- A fold whose every step keeps a part of the state keeps it. -/
theorem foldl_keeps {α β : Type} (f : State → α → State) (g : State → β) (h : ∀ s a, g (f s a) = g s) (l : List α) (s : State) :
    g (l.foldl f s) = g s := by
  induction l generalizing s with
  | nil => rfl
  | cons a l ih => rw [List.foldl_cons, ih, h]

/-- A match changes watch rings, what leaves for the host and the moves to come, and nothing else. -/
theorem watchMatch_frame (s : State) (line : BitVec 37) (cls port access : Nat) (part : BitVec 6) (words : BitVec 16) :
    (watchMatch s line cls port access part words).mem = s.mem ∧ (watchMatch s line cls port access part words).cpu = s.cpu
      ∧ (watchMatch s line cls port access part words).eng = s.eng := by
  unfold watchMatch
  refine ⟨?_, ?_, ?_⟩ <;>
    · refine foldl_keeps _ _ (fun s c => ?_) _ _
      dsimp only
      repeat' split
      all_goals rfl

@[simp] theorem watchMatch_mem (s : State) (line : BitVec 37) (cls port access : Nat) (part : BitVec 6) (words : BitVec 16) :
    (watchMatch s line cls port access part words).mem = s.mem := (watchMatch_frame ..).1
@[simp] theorem watchMatch_cpu (s : State) (line : BitVec 37) (cls port access : Nat) (part : BitVec 6) (words : BitVec 16) :
    (watchMatch s line cls port access part words).cpu = s.cpu := (watchMatch_frame ..).2.1
@[simp] theorem watchMatch_eng (s : State) (line : BitVec 37) (cls port access : Nat) (part : BitVec 6) (words : BitVec 16) :
    (watchMatch s line cls port access part words).eng = s.eng := (watchMatch_frame ..).2.2


end Sys2Proof.Machine
end

