-- ==== Sys2Proof/Laws/PerInstr.lean ====
section
/-! SUPPORT. What is said of every constructor of the instruction type: the encoder gives each
instruction word the length that its low two bits announce (R39), and no bits beyond that length. -/

namespace Sys2Proof.Laws

/-- A field that a word carries at bit `lo`, with something below it and something above, reads back. -/
theorem fld_of {w lo n a b : Nat} (x : BitVec n) (h : w = a + 2 ^ lo * (x.toNat + 2 ^ n * b)) (ha : a < 2 ^ lo) :
    fld w lo n = x := by
  apply BitVec.eq_of_toNat_eq
  simp [fld, h, Nat.add_mul_div_left _ _ (Nat.two_pow_pos lo), Nat.div_eq_of_lt ha]

end Sys2Proof.Laws

namespace Sys2Proof.Laws.EncodedLength

/-- A 16-bit form's word fits in 16 bits and does not end in 0b11; any other word fits in 32 bits and
does (R39). -/
def Statement (i : Instr) : Prop :=
  i.isEvent = false →
    if i.isHalf then encode i < 2 ^ 16 ∧ encode i % 4 ≠ 3 else encode i < 2 ^ 32 ∧ encode i % 4 = 3

theorem add x0 x1 x2 : Statement (.add x0 x1 x2) := by
  intro _; show put _ _ _ < _ ∧ put _ _ _ % 4 = 3; simp only [put]; omega
theorem sub x0 x1 x2 : Statement (.sub x0 x1 x2) := by
  intro _; show put _ _ _ < _ ∧ put _ _ _ % 4 = 3; simp only [put]; omega
theorem mul x0 x1 x2 : Statement (.mul x0 x1 x2) := by
  intro _; show put _ _ _ < _ ∧ put _ _ _ % 4 = 3; simp only [put]; omega
theorem mulh x0 x1 x2 : Statement (.mulh x0 x1 x2) := by
  intro _; show put _ _ _ < _ ∧ put _ _ _ % 4 = 3; simp only [put]; omega
theorem mulhu x0 x1 x2 : Statement (.mulhu x0 x1 x2) := by
  intro _; show put _ _ _ < _ ∧ put _ _ _ % 4 = 3; simp only [put]; omega
theorem div x0 x1 x2 : Statement (.div x0 x1 x2) := by
  intro _; show put _ _ _ < _ ∧ put _ _ _ % 4 = 3; simp only [put]; omega
theorem divu x0 x1 x2 : Statement (.divu x0 x1 x2) := by
  intro _; show put _ _ _ < _ ∧ put _ _ _ % 4 = 3; simp only [put]; omega
theorem rem x0 x1 x2 : Statement (.rem x0 x1 x2) := by
  intro _; show put _ _ _ < _ ∧ put _ _ _ % 4 = 3; simp only [put]; omega
theorem remu x0 x1 x2 : Statement (.remu x0 x1 x2) := by
  intro _; show put _ _ _ < _ ∧ put _ _ _ % 4 = 3; simp only [put]; omega
theorem and x0 x1 x2 : Statement (.and x0 x1 x2) := by
  intro _; show put _ _ _ < _ ∧ put _ _ _ % 4 = 3; simp only [put]; omega
theorem or x0 x1 x2 : Statement (.or x0 x1 x2) := by
  intro _; show put _ _ _ < _ ∧ put _ _ _ % 4 = 3; simp only [put]; omega
theorem xor x0 x1 x2 : Statement (.xor x0 x1 x2) := by
  intro _; show put _ _ _ < _ ∧ put _ _ _ % 4 = 3; simp only [put]; omega
theorem andn x0 x1 x2 : Statement (.andn x0 x1 x2) := by
  intro _; show put _ _ _ < _ ∧ put _ _ _ % 4 = 3; simp only [put]; omega
theorem shl x0 x1 x2 : Statement (.shl x0 x1 x2) := by
  intro _; show put _ _ _ < _ ∧ put _ _ _ % 4 = 3; simp only [put]; omega
theorem shr x0 x1 x2 : Statement (.shr x0 x1 x2) := by
  intro _; show put _ _ _ < _ ∧ put _ _ _ % 4 = 3; simp only [put]; omega
theorem sra x0 x1 x2 : Statement (.sra x0 x1 x2) := by
  intro _; show put _ _ _ < _ ∧ put _ _ _ % 4 = 3; simp only [put]; omega
theorem rot x0 x1 x2 : Statement (.rot x0 x1 x2) := by
  intro _; show put _ _ _ < _ ∧ put _ _ _ % 4 = 3; simp only [put]; omega
theorem min x0 x1 x2 : Statement (.min x0 x1 x2) := by
  intro _; show put _ _ _ < _ ∧ put _ _ _ % 4 = 3; simp only [put]; omega
theorem max x0 x1 x2 : Statement (.max x0 x1 x2) := by
  intro _; show put _ _ _ < _ ∧ put _ _ _ % 4 = 3; simp only [put]; omega
theorem minu x0 x1 x2 : Statement (.minu x0 x1 x2) := by
  intro _; show put _ _ _ < _ ∧ put _ _ _ % 4 = 3; simp only [put]; omega
theorem maxu x0 x1 x2 : Statement (.maxu x0 x1 x2) := by
  intro _; show put _ _ _ < _ ∧ put _ _ _ % 4 = 3; simp only [put]; omega
theorem slt x0 x1 x2 : Statement (.slt x0 x1 x2) := by
  intro _; show put _ _ _ < _ ∧ put _ _ _ % 4 = 3; simp only [put]; omega
theorem sltu x0 x1 x2 : Statement (.sltu x0 x1 x2) := by
  intro _; show put _ _ _ < _ ∧ put _ _ _ % 4 = 3; simp only [put]; omega
theorem clz x0 x1 : Statement (.clz x0 x1) := by
  intro _; show put _ _ _ < _ ∧ put _ _ _ % 4 = 3; simp only [put]; omega
theorem ctz x0 x1 : Statement (.ctz x0 x1) := by
  intro _; show put _ _ _ < _ ∧ put _ _ _ % 4 = 3; simp only [put]; omega
theorem popc x0 x1 : Statement (.popc x0 x1) := by
  intro _; show put _ _ _ < _ ∧ put _ _ _ % 4 = 3; simp only [put]; omega
theorem sel x0 x1 x2 : Statement (.sel x0 x1 x2) := by
  intro _; show put _ _ _ < _ ∧ put _ _ _ % 4 = 3; simp only [put]; omega
theorem bext x0 x1 x2 : Statement (.bext x0 x1 x2) := by
  intro _; show put _ _ _ < _ ∧ put _ _ _ % 4 = 3; simp only [put]; omega
theorem bins x0 x1 x2 : Statement (.bins x0 x1 x2) := by
  intro _; show put _ _ _ < _ ∧ put _ _ _ % 4 = 3; simp only [put]; omega
theorem lea x0 x1 x2 x3 : Statement (.lea x0 x1 x2 x3) := by
  intro _; show put _ _ _ < _ ∧ put _ _ _ % 4 = 3; simp only [put]; omega
theorem addImm x0 x1 x2 : Statement (.addImm x0 x1 x2) := by
  intro _; show put _ _ _ < _ ∧ put _ _ _ % 4 = 3; simp only [put]; omega
theorem sltImm x0 x1 x2 : Statement (.sltImm x0 x1 x2) := by
  intro _; show put _ _ _ < _ ∧ put _ _ _ % 4 = 3; simp only [put]; omega
theorem sltuImm x0 x1 x2 : Statement (.sltuImm x0 x1 x2) := by
  intro _; show put _ _ _ < _ ∧ put _ _ _ % 4 = 3; simp only [put]; omega
theorem andImm x0 x1 x2 : Statement (.andImm x0 x1 x2) := by
  intro _; show put _ _ _ < _ ∧ put _ _ _ % 4 = 3; simp only [put]; omega
theorem orImm x0 x1 x2 : Statement (.orImm x0 x1 x2) := by
  intro _; show put _ _ _ < _ ∧ put _ _ _ % 4 = 3; simp only [put]; omega
theorem xorImm x0 x1 x2 : Statement (.xorImm x0 x1 x2) := by
  intro _; show put _ _ _ < _ ∧ put _ _ _ % 4 = 3; simp only [put]; omega
theorem shli x0 x1 x2 : Statement (.shli x0 x1 x2) := by
  intro _; show put _ _ _ < _ ∧ put _ _ _ % 4 = 3; simp only [put]; omega
theorem shri x0 x1 x2 : Statement (.shri x0 x1 x2) := by
  intro _; show put _ _ _ < _ ∧ put _ _ _ % 4 = 3; simp only [put]; omega
theorem srai x0 x1 x2 : Statement (.srai x0 x1 x2) := by
  intro _; show put _ _ _ < _ ∧ put _ _ _ % 4 = 3; simp only [put]; omega
theorem roti x0 x1 x2 : Statement (.roti x0 x1 x2) := by
  intro _; show put _ _ _ < _ ∧ put _ _ _ % 4 = 3; simp only [put]; omega
theorem lih x0 x1 : Statement (.lih x0 x1) := by
  intro _; show put _ _ _ < _ ∧ put _ _ _ % 4 = 3; simp only [put]; omega
theorem addpc x0 x1 : Statement (.addpc x0 x1) := by
  intro _; show put _ _ _ < _ ∧ put _ _ _ % 4 = 3; simp only [put]; omega
theorem beq x0 x1 x2 : Statement (.beq x0 x1 x2) := by
  intro _; show put _ _ _ < _ ∧ put _ _ _ % 4 = 3; simp only [put]; omega
theorem bne x0 x1 x2 : Statement (.bne x0 x1 x2) := by
  intro _; show put _ _ _ < _ ∧ put _ _ _ % 4 = 3; simp only [put]; omega
theorem blt x0 x1 x2 : Statement (.blt x0 x1 x2) := by
  intro _; show put _ _ _ < _ ∧ put _ _ _ % 4 = 3; simp only [put]; omega
theorem bge x0 x1 x2 : Statement (.bge x0 x1 x2) := by
  intro _; show put _ _ _ < _ ∧ put _ _ _ % 4 = 3; simp only [put]; omega
theorem bltu x0 x1 x2 : Statement (.bltu x0 x1 x2) := by
  intro _; show put _ _ _ < _ ∧ put _ _ _ % 4 = 3; simp only [put]; omega
theorem bgeu x0 x1 x2 : Statement (.bgeu x0 x1 x2) := by
  intro _; show put _ _ _ < _ ∧ put _ _ _ % 4 = 3; simp only [put]; omega
theorem dbnz x0 x1 : Statement (.dbnz x0 x1) := by
  intro _; show put _ _ _ < _ ∧ put _ _ _ % 4 = 3; simp only [put]; omega
theorem jal x0 x1 : Statement (.jal x0 x1) := by
  intro _; show put _ _ _ < _ ∧ put _ _ _ % 4 = 3; simp only [put]; omega
theorem jalr x0 x1 x2 : Statement (.jalr x0 x1 x2) := by
  intro _; show put _ _ _ < _ ∧ put _ _ _ % 4 = 3; simp only [put]; omega
theorem ldb x0 x1 x2 : Statement (.ldb x0 x1 x2) := by
  intro _; show put _ _ _ < _ ∧ put _ _ _ % 4 = 3; simp only [put]; omega
theorem ldh x0 x1 x2 : Statement (.ldh x0 x1 x2) := by
  intro _; show put _ _ _ < _ ∧ put _ _ _ % 4 = 3; simp only [put]; omega
theorem ldw x0 x1 x2 : Statement (.ldw x0 x1 x2) := by
  intro _; show put _ _ _ < _ ∧ put _ _ _ % 4 = 3; simp only [put]; omega
theorem ldd x0 x1 x2 : Statement (.ldd x0 x1 x2) := by
  intro _; show put _ _ _ < _ ∧ put _ _ _ % 4 = 3; simp only [put]; omega
theorem ldbu x0 x1 x2 : Statement (.ldbu x0 x1 x2) := by
  intro _; show put _ _ _ < _ ∧ put _ _ _ % 4 = 3; simp only [put]; omega
theorem ldhu x0 x1 x2 : Statement (.ldhu x0 x1 x2) := by
  intro _; show put _ _ _ < _ ∧ put _ _ _ % 4 = 3; simp only [put]; omega
theorem ldwu x0 x1 x2 : Statement (.ldwu x0 x1 x2) := by
  intro _; show put _ _ _ < _ ∧ put _ _ _ % 4 = 3; simp only [put]; omega
theorem stb x0 x1 x2 : Statement (.stb x0 x1 x2) := by
  intro _; show put _ _ _ < _ ∧ put _ _ _ % 4 = 3; simp only [put]; omega
theorem sth x0 x1 x2 : Statement (.sth x0 x1 x2) := by
  intro _; show put _ _ _ < _ ∧ put _ _ _ % 4 = 3; simp only [put]; omega
theorem stw x0 x1 x2 : Statement (.stw x0 x1 x2) := by
  intro _; show put _ _ _ < _ ∧ put _ _ _ % 4 = 3; simp only [put]; omega
theorem std x0 x1 x2 : Statement (.std x0 x1 x2) := by
  intro _; show put _ _ _ < _ ∧ put _ _ _ % 4 = 3; simp only [put]; omega
theorem ldk x0 x1 : Statement (.ldk x0 x1) := by
  intro _; show put _ _ _ < _ ∧ put _ _ _ % 4 = 3; simp only [put]; omega
theorem addK x0 x1 x2 : Statement (.addK x0 x1 x2) := by
  intro _; show put _ _ _ < _ ∧ put _ _ _ % 4 = 3; simp only [put]; omega
theorem subK x0 x1 x2 : Statement (.subK x0 x1 x2) := by
  intro _; show put _ _ _ < _ ∧ put _ _ _ % 4 = 3; simp only [put]; omega
theorem mulK x0 x1 x2 : Statement (.mulK x0 x1 x2) := by
  intro _; show put _ _ _ < _ ∧ put _ _ _ % 4 = 3; simp only [put]; omega
theorem andK x0 x1 x2 : Statement (.andK x0 x1 x2) := by
  intro _; show put _ _ _ < _ ∧ put _ _ _ % 4 = 3; simp only [put]; omega
theorem orK x0 x1 x2 : Statement (.orK x0 x1 x2) := by
  intro _; show put _ _ _ < _ ∧ put _ _ _ % 4 = 3; simp only [put]; omega
theorem xorK x0 x1 x2 : Statement (.xorK x0 x1 x2) := by
  intro _; show put _ _ _ < _ ∧ put _ _ _ % 4 = 3; simp only [put]; omega
theorem ldxK x0 x1 : Statement (.ldxK x0 x1) := by
  intro _; show put _ _ _ < _ ∧ put _ _ _ % 4 = 3; simp only [put]; omega
theorem faddK x0 x1 x2 x3 : Statement (.faddK x0 x1 x2 x3) := by
  intro _; show put _ _ _ < _ ∧ put _ _ _ % 4 = 3; simp only [put]; omega
theorem fmulK x0 x1 x2 x3 : Statement (.fmulK x0 x1 x2 x3) := by
  intro _; show put _ _ _ < _ ∧ put _ _ _ % 4 = 3; simp only [put]; omega
theorem ffmaK x0 x1 x2 x3 : Statement (.ffmaK x0 x1 x2 x3) := by
  intro _; show put _ _ _ < _ ∧ put _ _ _ % 4 = 3; simp only [put]; omega
theorem fsubK x0 x1 x2 x3 : Statement (.fsubK x0 x1 x2 x3) := by
  intro _; show put _ _ _ < _ ∧ put _ _ _ % 4 = 3; simp only [put]; omega
theorem ldx x0 x1 x2 : Statement (.ldx x0 x1 x2) := by
  intro _; show put _ _ _ < _ ∧ put _ _ _ % 4 = 3; simp only [put]; omega
theorem stx x0 x1 x2 : Statement (.stx x0 x1 x2) := by
  intro _; show put _ _ _ < _ ∧ put _ _ _ % 4 = 3; simp only [put]; omega
theorem mte x0 x1 : Statement (.mte x0 x1) := by
  intro _; show put _ _ _ < _ ∧ put _ _ _ % 4 = 3; simp only [put]; omega
theorem mfe x0 x1 : Statement (.mfe x0 x1) := by
  intro _; show put _ _ _ < _ ∧ put _ _ _ % 4 = 3; simp only [put]; omega
theorem fli x0 x1 : Statement (.fli x0 x1) := by
  intro _; show put _ _ _ < _ ∧ put _ _ _ % 4 = 3; simp only [put]; omega
theorem faddi x0 x1 : Statement (.faddi x0 x1) := by
  intro _; show put _ _ _ < _ ∧ put _ _ _ % 4 = 3; simp only [put]; omega
theorem fmuli x0 x1 : Statement (.fmuli x0 x1) := by
  intro _; show put _ _ _ < _ ∧ put _ _ _ % 4 = 3; simp only [put]; omega
theorem fadd x0 x1 x2 x3 x4 : Statement (.fadd x0 x1 x2 x3 x4) := by
  intro _; show put _ _ _ < _ ∧ put _ _ _ % 4 = 3; simp only [put]; omega
theorem fsub x0 x1 x2 x3 x4 : Statement (.fsub x0 x1 x2 x3 x4) := by
  intro _; show put _ _ _ < _ ∧ put _ _ _ % 4 = 3; simp only [put]; omega
theorem fmul x0 x1 x2 x3 x4 : Statement (.fmul x0 x1 x2 x3 x4) := by
  intro _; show put _ _ _ < _ ∧ put _ _ _ % 4 = 3; simp only [put]; omega
theorem fdiv x0 x1 x2 x3 x4 : Statement (.fdiv x0 x1 x2 x3 x4) := by
  intro _; show put _ _ _ < _ ∧ put _ _ _ % 4 = 3; simp only [put]; omega
theorem fsqrt x0 x1 x2 x3 : Statement (.fsqrt x0 x1 x2 x3) := by
  intro _; show put _ _ _ < _ ∧ put _ _ _ % 4 = 3; simp only [put]; omega
theorem fmin x0 x1 x2 x3 : Statement (.fmin x0 x1 x2 x3) := by
  intro _; show put _ _ _ < _ ∧ put _ _ _ % 4 = 3; simp only [put]; omega
theorem fmax x0 x1 x2 x3 : Statement (.fmax x0 x1 x2 x3) := by
  intro _; show put _ _ _ < _ ∧ put _ _ _ % 4 = 3; simp only [put]; omega
theorem fcmp x0 x1 x2 x3 x4 : Statement (.fcmp x0 x1 x2 x3 x4) := by
  intro _; show put _ _ _ < _ ∧ put _ _ _ % 4 = 3; simp only [put]; omega
theorem fclass x0 x1 x2 : Statement (.fclass x0 x1 x2) := by
  intro _; show put _ _ _ < _ ∧ put _ _ _ % 4 = 3; simp only [put]; omega
theorem fsgn x0 x1 x2 x3 : Statement (.fsgn x0 x1 x2 x3) := by
  intro _; show put _ _ _ < _ ∧ put _ _ _ % 4 = 3; simp only [put]; omega
theorem fsgnn x0 x1 x2 x3 : Statement (.fsgnn x0 x1 x2 x3) := by
  intro _; show put _ _ _ < _ ∧ put _ _ _ % 4 = 3; simp only [put]; omega
theorem fsgnx x0 x1 x2 x3 : Statement (.fsgnx x0 x1 x2 x3) := by
  intro _; show put _ _ _ < _ ∧ put _ _ _ % 4 = 3; simp only [put]; omega
theorem fcvt x0 x1 x2 x3 x4 : Statement (.fcvt x0 x1 x2 x3 x4) := by
  intro _; show put _ _ _ < _ ∧ put _ _ _ % 4 = 3; simp only [put]; omega
theorem ffma x0 x1 x2 x3 x4 x5 : Statement (.ffma x0 x1 x2 x3 x4 x5) := by
  intro _; show put _ _ _ < _ ∧ put _ _ _ % 4 = 3; simp only [put]; omega
theorem csrr x0 x1 : Statement (.csrr x0 x1) := by
  intro _; show put _ _ _ < _ ∧ put _ _ _ % 4 = 3; simp only [put]; omega
theorem csrw x0 x1 : Statement (.csrw x0 x1) := by
  intro _; show put _ _ _ < _ ∧ put _ _ _ % 4 = 3; simp only [put]; omega
theorem svc x0 : Statement (.svc x0) := by
  intro _; show put _ _ _ < _ ∧ put _ _ _ % 4 = 3; simp only [put]; omega
theorem tret : Statement (.tret) := fun _ => by decide
theorem ifence : Statement (.ifence) := fun _ => by decide
theorem brk x0 : Statement (.brk x0) := by
  intro _; show put _ _ _ < _ ∧ put _ _ _ % 4 = 3; simp only [put]; omega
theorem spt x0 : Statement (.spt x0) := by
  intro _; show put _ _ _ < _ ∧ put _ _ _ % 4 = 3; simp only [put]; omega
theorem nop : Statement (.nop) := fun _ => by decide
theorem send x0 x1 x2 : Statement (.send x0 x1 x2) := by
  intro _; show put _ _ _ < _ ∧ put _ _ _ % 4 = 3; simp only [put]; omega
theorem spawn x0 x1 x2 : Statement (.spawn x0 x1 x2) := by
  intro _; show put _ _ _ < _ ∧ put _ _ _ % 4 = 3; simp only [put]; omega
theorem tend : Statement (.tend) := fun _ => by decide
theorem claim x0 : Statement (.claim x0) := by
  intro _; show put _ _ _ < _ ∧ put _ _ _ % 4 = 3; simp only [put]; omega
theorem unclaim : Statement (.unclaim) := fun _ => by decide
theorem dcset x0 x1 : Statement (.dcset x0 x1) := by
  intro _; show put _ _ _ < _ ∧ put _ _ _ % 4 = 3; simp only [put]; omega
theorem dcdec x0 : Statement (.dcdec x0) := by
  intro _; show put _ _ _ < _ ∧ put _ _ _ % 4 = 3; simp only [put]; omega
theorem tagarmAny x0 x1 : Statement (.tagarmAny x0 x1) := by
  intro _; show put _ _ _ < _ ∧ put _ _ _ % 4 = 3; simp only [put]; omega
theorem tagarmAll x0 x1 : Statement (.tagarmAll x0 x1) := by
  intro _; show put _ _ _ < _ ∧ put _ _ _ % 4 = 3; simp only [put]; omega
theorem bari x0 x1 : Statement (.bari x0 x1) := by
  intro _; show put _ _ _ < _ ∧ put _ _ _ % 4 = 3; simp only [put]; omega
theorem barv x0 x1 : Statement (.barv x0 x1) := by
  intro _; show put _ _ _ < _ ∧ put _ _ _ % 4 = 3; simp only [put]; omega
theorem bard x0 : Statement (.bard x0) := by
  intro _; show put _ _ _ < _ ∧ put _ _ _ % 4 = 3; simp only [put]; omega
theorem barj x0 : Statement (.barj x0) := by
  intro _; show put _ _ _ < _ ∧ put _ _ _ % 4 = 3; simp only [put]; omega
theorem barq x0 x1 : Statement (.barq x0 x1) := by
  intro _; show put _ _ _ < _ ∧ put _ _ _ % 4 = 3; simp only [put]; omega
theorem amoadd x0 x1 x2 x3 x4 : Statement (.amoadd x0 x1 x2 x3 x4) := by
  intro _; show put _ _ _ < _ ∧ put _ _ _ % 4 = 3; simp only [put]; omega
theorem amoand x0 x1 x2 x3 x4 : Statement (.amoand x0 x1 x2 x3 x4) := by
  intro _; show put _ _ _ < _ ∧ put _ _ _ % 4 = 3; simp only [put]; omega
theorem amoor x0 x1 x2 x3 x4 : Statement (.amoor x0 x1 x2 x3 x4) := by
  intro _; show put _ _ _ < _ ∧ put _ _ _ % 4 = 3; simp only [put]; omega
theorem amoxor x0 x1 x2 x3 x4 : Statement (.amoxor x0 x1 x2 x3 x4) := by
  intro _; show put _ _ _ < _ ∧ put _ _ _ % 4 = 3; simp only [put]; omega
theorem amomin x0 x1 x2 x3 x4 : Statement (.amomin x0 x1 x2 x3 x4) := by
  intro _; show put _ _ _ < _ ∧ put _ _ _ % 4 = 3; simp only [put]; omega
theorem amomax x0 x1 x2 x3 x4 : Statement (.amomax x0 x1 x2 x3 x4) := by
  intro _; show put _ _ _ < _ ∧ put _ _ _ % 4 = 3; simp only [put]; omega
theorem amominu x0 x1 x2 x3 x4 : Statement (.amominu x0 x1 x2 x3 x4) := by
  intro _; show put _ _ _ < _ ∧ put _ _ _ % 4 = 3; simp only [put]; omega
theorem amomaxu x0 x1 x2 x3 x4 : Statement (.amomaxu x0 x1 x2 x3 x4) := by
  intro _; show put _ _ _ < _ ∧ put _ _ _ % 4 = 3; simp only [put]; omega
theorem amoswp x0 x1 x2 x3 x4 : Statement (.amoswp x0 x1 x2 x3 x4) := by
  intro _; show put _ _ _ < _ ∧ put _ _ _ % 4 = 3; simp only [put]; omega
theorem cas x0 x1 x2 x3 x4 : Statement (.cas x0 x1 x2 x3 x4) := by
  intro _; show put _ _ _ < _ ∧ put _ _ _ % 4 = 3; simp only [put]; omega
theorem cas2 x0 x1 x2 x3 : Statement (.cas2 x0 x1 x2 x3) := by
  intro _; show put _ _ _ < _ ∧ put _ _ _ % 4 = 3; simp only [put]; omega
theorem redadd x0 x1 x2 x3 : Statement (.redadd x0 x1 x2 x3) := by
  intro _; show put _ _ _ < _ ∧ put _ _ _ % 4 = 3; simp only [put]; omega
theorem ldacq x0 x1 x2 : Statement (.ldacq x0 x1 x2) := by
  intro _; show put _ _ _ < _ ∧ put _ _ _ % 4 = 3; simp only [put]; omega
theorem strel x0 x1 x2 : Statement (.strel x0 x1 x2) := by
  intro _; show put _ _ _ < _ ∧ put _ _ _ % 4 = 3; simp only [put]; omega
theorem fence x0 : Statement (.fence x0) := by
  intro _; show put _ _ _ < _ ∧ put _ _ _ % 4 = 3; simp only [put]; omega
theorem fenceAcq x0 : Statement (.fenceAcq x0) := by
  intro _; show put _ _ _ < _ ∧ put _ _ _ % 4 = 3; simp only [put]; omega
theorem fenceRel x0 : Statement (.fenceRel x0) := by
  intro _; show put _ _ _ < _ ∧ put _ _ _ % 4 = 3; simp only [put]; omega
theorem fencex x0 x1 x2 : Statement (.fencex x0 x1 x2) := by
  intro _; show put _ _ _ < _ ∧ put _ _ _ % 4 = 3; simp only [put]; omega
theorem sflush x0 x1 : Statement (.sflush x0 x1) := by
  intro _; show put _ _ _ < _ ∧ put _ _ _ % 4 = 3; simp only [put]; omega
theorem sinv x0 x1 : Statement (.sinv x0 x1) := by
  intro _; show put _ _ _ < _ ∧ put _ _ _ % 4 = 3; simp only [put]; omega
theorem spf x0 x1 : Statement (.spf x0 x1) := by
  intro _; show put _ _ _ < _ ∧ put _ _ _ % 4 = 3; simp only [put]; omega
theorem monarm x0 x1 x2 : Statement (.monarm x0 x1 x2) := by
  intro _; show put _ _ _ < _ ∧ put _ _ _ % 4 = 3; simp only [put]; omega
theorem mondis x0 : Statement (.mondis x0) := by
  intro _; show put _ _ _ < _ ∧ put _ _ _ % 4 = 3; simp only [put]; omega
theorem vadd x0 x1 x2 x3 x4 : Statement (.vadd x0 x1 x2 x3 x4) := by
  intro _; show put _ _ _ < _ ∧ put _ _ _ % 4 = 3; simp only [put]; omega
theorem vsub x0 x1 x2 x3 x4 : Statement (.vsub x0 x1 x2 x3 x4) := by
  intro _; show put _ _ _ < _ ∧ put _ _ _ % 4 = 3; simp only [put]; omega
theorem vmul x0 x1 x2 x3 x4 : Statement (.vmul x0 x1 x2 x3 x4) := by
  intro _; show put _ _ _ < _ ∧ put _ _ _ % 4 = 3; simp only [put]; omega
theorem vfma x0 x1 x2 x3 x4 : Statement (.vfma x0 x1 x2 x3 x4) := by
  intro _; show put _ _ _ < _ ∧ put _ _ _ % 4 = 3; simp only [put]; omega
theorem vdiv x0 x1 x2 x3 x4 : Statement (.vdiv x0 x1 x2 x3 x4) := by
  intro _; show put _ _ _ < _ ∧ put _ _ _ % 4 = 3; simp only [put]; omega
theorem vmin x0 x1 x2 x3 x4 : Statement (.vmin x0 x1 x2 x3 x4) := by
  intro _; show put _ _ _ < _ ∧ put _ _ _ % 4 = 3; simp only [put]; omega
theorem vmax x0 x1 x2 x3 x4 : Statement (.vmax x0 x1 x2 x3 x4) := by
  intro _; show put _ _ _ < _ ∧ put _ _ _ % 4 = 3; simp only [put]; omega
theorem vabs x0 x1 x2 x3 : Statement (.vabs x0 x1 x2 x3) := by
  intro _; show put _ _ _ < _ ∧ put _ _ _ % 4 = 3; simp only [put]; omega
theorem vand x0 x1 x2 x3 x4 : Statement (.vand x0 x1 x2 x3 x4) := by
  intro _; show put _ _ _ < _ ∧ put _ _ _ % 4 = 3; simp only [put]; omega
theorem vor x0 x1 x2 x3 x4 : Statement (.vor x0 x1 x2 x3 x4) := by
  intro _; show put _ _ _ < _ ∧ put _ _ _ % 4 = 3; simp only [put]; omega
theorem vxor x0 x1 x2 x3 x4 : Statement (.vxor x0 x1 x2 x3 x4) := by
  intro _; show put _ _ _ < _ ∧ put _ _ _ % 4 = 3; simp only [put]; omega
theorem vshl x0 x1 x2 x3 x4 : Statement (.vshl x0 x1 x2 x3 x4) := by
  intro _; show put _ _ _ < _ ∧ put _ _ _ % 4 = 3; simp only [put]; omega
theorem vshr x0 x1 x2 x3 x4 : Statement (.vshr x0 x1 x2 x3 x4) := by
  intro _; show put _ _ _ < _ ∧ put _ _ _ % 4 = 3; simp only [put]; omega
theorem vsra x0 x1 x2 x3 x4 : Statement (.vsra x0 x1 x2 x3 x4) := by
  intro _; show put _ _ _ < _ ∧ put _ _ _ % 4 = 3; simp only [put]; omega
theorem vadds x0 x1 x2 x3 x4 : Statement (.vadds x0 x1 x2 x3 x4) := by
  intro _; show put _ _ _ < _ ∧ put _ _ _ % 4 = 3; simp only [put]; omega
theorem vsubs x0 x1 x2 x3 x4 : Statement (.vsubs x0 x1 x2 x3 x4) := by
  intro _; show put _ _ _ < _ ∧ put _ _ _ % 4 = 3; simp only [put]; omega
theorem vcmpeq x0 x1 x2 x3 x4 : Statement (.vcmpeq x0 x1 x2 x3 x4) := by
  intro _; show put _ _ _ < _ ∧ put _ _ _ % 4 = 3; simp only [put]; omega
theorem vcmplt x0 x1 x2 x3 x4 : Statement (.vcmplt x0 x1 x2 x3 x4) := by
  intro _; show put _ _ _ < _ ∧ put _ _ _ % 4 = 3; simp only [put]; omega
theorem vcmple x0 x1 x2 x3 x4 : Statement (.vcmple x0 x1 x2 x3 x4) := by
  intro _; show put _ _ _ < _ ∧ put _ _ _ % 4 = 3; simp only [put]; omega
theorem vcmpltu x0 x1 x2 x3 x4 : Statement (.vcmpltu x0 x1 x2 x3 x4) := by
  intro _; show put _ _ _ < _ ∧ put _ _ _ % 4 = 3; simp only [put]; omega
theorem vsel x0 x1 x2 x3 x4 : Statement (.vsel x0 x1 x2 x3 x4) := by
  intro _; show put _ _ _ < _ ∧ put _ _ _ % 4 = 3; simp only [put]; omega
theorem vcvt x0 x1 x2 x3 x4 : Statement (.vcvt x0 x1 x2 x3 x4) := by
  intro _; show put _ _ _ < _ ∧ put _ _ _ % 4 = 3; simp only [put]; omega
theorem vperm x0 x1 x2 x3 x4 : Statement (.vperm x0 x1 x2 x3 x4) := by
  intro _; show put _ _ _ < _ ∧ put _ _ _ % 4 = 3; simp only [put]; omega
theorem vbcast x0 x1 x2 x3 : Statement (.vbcast x0 x1 x2 x3) := by
  intro _; show put _ _ _ < _ ∧ put _ _ _ % 4 = 3; simp only [put]; omega
theorem vidx x0 x1 x2 : Statement (.vidx x0 x1 x2) := by
  intro _; show put _ _ _ < _ ∧ put _ _ _ % 4 = 3; simp only [put]; omega
theorem vmovx x0 x1 x2 x3 : Statement (.vmovx x0 x1 x2 x3) := by
  intro _; show put _ _ _ < _ ∧ put _ _ _ % 4 = 3; simp only [put]; omega
theorem vredadd x0 x1 x2 x3 : Statement (.vredadd x0 x1 x2 x3) := by
  intro _; show put _ _ _ < _ ∧ put _ _ _ % 4 = 3; simp only [put]; omega
theorem vredmin x0 x1 x2 x3 : Statement (.vredmin x0 x1 x2 x3) := by
  intro _; show put _ _ _ < _ ∧ put _ _ _ % 4 = 3; simp only [put]; omega
theorem vredmax x0 x1 x2 x3 : Statement (.vredmax x0 x1 x2 x3) := by
  intro _; show put _ _ _ < _ ∧ put _ _ _ % 4 = 3; simp only [put]; omega
theorem vmand x0 x1 x2 : Statement (.vmand x0 x1 x2) := by
  intro _; show put _ _ _ < _ ∧ put _ _ _ % 4 = 3; simp only [put]; omega
theorem vmor x0 x1 x2 : Statement (.vmor x0 x1 x2) := by
  intro _; show put _ _ _ < _ ∧ put _ _ _ % 4 = 3; simp only [put]; omega
theorem vmxor x0 x1 x2 : Statement (.vmxor x0 x1 x2) := by
  intro _; show put _ _ _ < _ ∧ put _ _ _ % 4 = 3; simp only [put]; omega
theorem vmpopc x0 x1 : Statement (.vmpopc x0 x1) := by
  intro _; show put _ _ _ < _ ∧ put _ _ _ % 4 = 3; simp only [put]; omega
theorem vgen x0 x1 x2 x3 x4 : Statement (.vgen x0 x1 x2 x3 x4) := by
  intro _; show put _ _ _ < _ ∧ put _ _ _ % 4 = 3; simp only [put]; omega
theorem vld x0 x1 x2 x3 : Statement (.vld x0 x1 x2 x3) := by
  intro _; show put _ _ _ < _ ∧ put _ _ _ % 4 = 3; simp only [put]; omega
theorem vst x0 x1 x2 x3 : Statement (.vst x0 x1 x2 x3) := by
  intro _; show put _ _ _ < _ ∧ put _ _ _ % 4 = 3; simp only [put]; omega
theorem vlds x0 x1 x2 x3 x4 : Statement (.vlds x0 x1 x2 x3 x4) := by
  intro _; show put _ _ _ < _ ∧ put _ _ _ % 4 = 3; simp only [put]; omega
theorem vsts x0 x1 x2 x3 x4 : Statement (.vsts x0 x1 x2 x3 x4) := by
  intro _; show put _ _ _ < _ ∧ put _ _ _ % 4 = 3; simp only [put]; omega
theorem vgath x0 x1 x2 x3 x4 : Statement (.vgath x0 x1 x2 x3 x4) := by
  intro _; show put _ _ _ < _ ∧ put _ _ _ % 4 = 3; simp only [put]; omega
theorem vscat x0 x1 x2 x3 x4 : Statement (.vscat x0 x1 x2 x3 x4) := by
  intro _; show put _ _ _ < _ ∧ put _ _ _ % 4 = 3; simp only [put]; omega
theorem copy x0 x1 x2 : Statement (.copy x0 x1 x2) := by
  intro _; show put _ _ _ < _ ∧ put _ _ _ % 4 = 3; simp only [put]; omega
theorem cshp x0 x1 : Statement (.cshp x0 x1) := by
  intro _; show put _ _ _ < _ ∧ put _ _ _ % 4 = 3; simp only [put]; omega
theorem tagtst x0 x1 : Statement (.tagtst x0 x1) := by
  intro _; show put _ _ _ < _ ∧ put _ _ _ % 4 = 3; simp only [put]; omega
theorem tagff x0 x1 : Statement (.tagff x0 x1) := by
  intro _; show put _ _ _ < _ ∧ put _ _ _ % 4 = 3; simp only [put]; omega
theorem tagclr x0 : Statement (.tagclr x0) := by
  intro _; show put _ _ _ < _ ∧ put _ _ _ % 4 = 3; simp only [put]; omega
theorem mma x0 x1 : Statement (.mma x0 x1) := by
  intro _; show put _ _ _ < _ ∧ put _ _ _ % 4 = 3; simp only [put]; omega
theorem mmac x0 x1 x2 : Statement (.mmac x0 x1 x2) := by
  intro _; show put _ _ _ < _ ∧ put _ _ _ % 4 = 3; simp only [put]; omega
theorem acld x0 x1 : Statement (.acld x0 x1) := by
  intro _; show put _ _ _ < _ ∧ put _ _ _ % 4 = 3; simp only [put]; omega
theorem acst x0 x1 : Statement (.acst x0 x1) := by
  intro _; show put _ _ _ < _ ∧ put _ _ _ % 4 = 3; simp only [put]; omega
theorem acz x0 : Statement (.acz x0) := by
  intro _; show put _ _ _ < _ ∧ put _ _ _ % 4 = 3; simp only [put]; omega
theorem accvt x0 x1 x2 : Statement (.accvt x0 x1 x2) := by
  intro _; show put _ _ _ < _ ∧ put _ _ _ % 4 = 3; simp only [put]; omega
theorem gset x0 x1 : Statement (.gset x0 x1) := by
  intro _; show put _ _ _ < _ ∧ put _ _ _ % 4 = 3; simp only [put]; omega
theorem gget x0 x1 : Statement (.gget x0 x1) := by
  intro _; show put _ _ _ < _ ∧ put _ _ _ % 4 = 3; simp only [put]; omega
theorem gdraw x0 x1 x2 : Statement (.gdraw x0 x1 x2) := by
  intro _; show put _ _ _ < _ ∧ put _ _ _ % 4 = 3; simp only [put]; omega
theorem grdef x0 x1 : Statement (.grdef x0 x1) := by
  intro _; show put _ _ _ < _ ∧ put _ _ _ % 4 = 3; simp only [put]; omega
theorem grbc x0 x1 : Statement (.grbc x0 x1) := by
  intro _; show put _ _ _ < _ ∧ put _ _ _ % 4 = 3; simp only [put]; omega
theorem grstep x0 x1 : Statement (.grstep x0 x1) := by
  intro _; show put _ _ _ < _ ∧ put _ _ _ % 4 = 3; simp only [put]; omega
theorem ldhs x0 x1 x2 : Statement (.ldhs x0 x1 x2) := by
  intro _; show put _ _ _ < _ ∧ put _ _ _ % 4 = 3; simp only [put]; omega
theorem grq x0 x1 x2 : Statement (.grq x0 x1 x2) := by
  intro _; show put _ _ _ < _ ∧ put _ _ _ % 4 = 3; simp only [put]; omega
theorem park x0 : Statement (.park x0) := by
  intro _; show put _ _ _ < _ ∧ put _ _ _ % 4 = 3; simp only [put]; omega
theorem ctxsv x0 : Statement (.ctxsv x0) := by
  intro _; show put _ _ _ < _ ∧ put _ _ _ % 4 = 3; simp only [put]; omega
theorem ctxrs x0 : Statement (.ctxrs x0) := by
  intro _; show put _ _ _ < _ ∧ put _ _ _ % 4 = 3; simp only [put]; omega
theorem tlbinv x0 x1 : Statement (.tlbinv x0 x1) := by
  intro _; show put _ _ _ < _ ∧ put _ _ _ % 4 = 3; simp only [put]; omega
theorem pktemit x0 x1 : Statement (.pktemit x0 x1) := by
  intro _; show put _ _ _ < _ ∧ put _ _ _ % 4 = 3; simp only [put]; omega
theorem pktfwd x0 : Statement (.pktfwd x0) := by
  intro _; show put _ _ _ < _ ∧ put _ _ _ % 4 = 3; simp only [put]; omega
theorem pktdrop : Statement (.pktdrop) := fun _ => by decide
theorem signal x0 : Statement (.signal x0) := by
  intro _; show put _ _ _ < _ ∧ put _ _ _ % 4 = 3; simp only [put]; omega
theorem parkq x0 : Statement (.parkq x0) := by
  intro _; show put _ _ _ < _ ∧ put _ _ _ % 4 = 3; simp only [put]; omega
theorem launch x0 x1 : Statement (.launch x0 x1) := by
  intro _; show put _ _ _ < _ ∧ put _ _ _ % 4 = 3; simp only [put]; omega
theorem loopb x0 x1 x2 : Statement (.loopb x0 x1 x2) := by
  intro _; show put _ _ _ < _ ∧ put _ _ _ % 4 = 3; simp only [put]; omega
theorem cAddi x0 x1 : Statement (.cAddi x0 x1) := by
  intro _; show put _ _ _ < _ ∧ put _ _ _ % 4 ≠ 3; simp only [put]; omega
theorem cLi x0 x1 : Statement (.cLi x0 x1) := by
  intro _; show put _ _ _ < _ ∧ put _ _ _ % 4 ≠ 3; simp only [put]; omega
theorem cShli x0 x1 : Statement (.cShli x0 x1) := by
  intro _; show put _ _ _ < _ ∧ put _ _ _ % 4 ≠ 3; simp only [put]; omega
theorem cShri x0 x1 : Statement (.cShri x0 x1) := by
  intro _; show put _ _ _ < _ ∧ put _ _ _ % 4 ≠ 3; simp only [put]; omega
theorem cSrai x0 x1 : Statement (.cSrai x0 x1) := by
  intro _; show put _ _ _ < _ ∧ put _ _ _ % 4 ≠ 3; simp only [put]; omega
theorem cAndi x0 x1 : Statement (.cAndi x0 x1) := by
  intro _; show put _ _ _ < _ ∧ put _ _ _ % 4 ≠ 3; simp only [put]; omega
theorem cLddSp x0 x1 : Statement (.cLddSp x0 x1) := by
  intro _; show put _ _ _ < _ ∧ put _ _ _ % 4 ≠ 3; simp only [put]; omega
theorem cStdSp x0 x1 : Statement (.cStdSp x0 x1) := by
  intro _; show put _ _ _ < _ ∧ put _ _ _ % 4 ≠ 3; simp only [put]; omega
theorem cMv x0 x1 : Statement (.cMv x0 x1) := by
  intro _; show put _ _ _ < _ ∧ put _ _ _ % 4 ≠ 3; simp only [put]; omega
theorem cAdd x0 x1 : Statement (.cAdd x0 x1) := by
  intro _; show put _ _ _ < _ ∧ put _ _ _ % 4 ≠ 3; simp only [put]; omega
theorem cSub x0 x1 : Statement (.cSub x0 x1) := by
  intro _; show put _ _ _ < _ ∧ put _ _ _ % 4 ≠ 3; simp only [put]; omega
theorem cAnd x0 x1 : Statement (.cAnd x0 x1) := by
  intro _; show put _ _ _ < _ ∧ put _ _ _ % 4 ≠ 3; simp only [put]; omega
theorem cOr x0 x1 : Statement (.cOr x0 x1) := by
  intro _; show put _ _ _ < _ ∧ put _ _ _ % 4 ≠ 3; simp only [put]; omega
theorem cXor x0 x1 : Statement (.cXor x0 x1) := by
  intro _; show put _ _ _ < _ ∧ put _ _ _ % 4 ≠ 3; simp only [put]; omega
theorem cJr x0 : Statement (.cJr x0) := by
  intro _; show put _ _ _ < _ ∧ put _ _ _ % 4 ≠ 3; simp only [put]; omega
theorem cJalr x0 x1 : Statement (.cJalr x0 x1) := by
  intro _; show put _ _ _ < _ ∧ put _ _ _ % 4 ≠ 3; simp only [put]; omega
theorem cLdd x0 x1 : Statement (.cLdd x0 x1) := by
  intro _; show put _ _ _ < _ ∧ put _ _ _ % 4 ≠ 3; simp only [put]; omega
theorem cStd x0 x1 : Statement (.cStd x0 x1) := by
  intro _; show put _ _ _ < _ ∧ put _ _ _ % 4 ≠ 3; simp only [put]; omega
theorem cLdw x0 x1 : Statement (.cLdw x0 x1) := by
  intro _; show put _ _ _ < _ ∧ put _ _ _ % 4 ≠ 3; simp only [put]; omega
theorem cStw x0 x1 : Statement (.cStw x0 x1) := by
  intro _; show put _ _ _ < _ ∧ put _ _ _ % 4 ≠ 3; simp only [put]; omega
theorem cTend : Statement (.cTend) := fun _ => by decide
theorem cNop : Statement (.cNop) := fun _ => by decide
theorem cBrk : Statement (.cBrk) := fun _ => by decide
theorem cBeqz x0 x1 : Statement (.cBeqz x0 x1) := by
  intro _; show put _ _ _ < _ ∧ put _ _ _ % 4 ≠ 3; simp only [put]; omega
theorem cBnez x0 x1 : Statement (.cBnez x0 x1) := by
  intro _; show put _ _ _ < _ ∧ put _ _ _ % 4 ≠ 3; simp only [put]; omega
theorem cJ x0 : Statement (.cJ x0) := by
  intro _; show put _ _ _ < _ ∧ put _ _ _ % 4 ≠ 3; simp only [put]; omega
theorem cDbnz x0 x1 : Statement (.cDbnz x0 x1) := by
  intro _; show put _ _ _ < _ ∧ put _ _ _ % 4 ≠ 3; simp only [put]; omega
theorem cLdk x0 x1 : Statement (.cLdk x0 x1) := by
  intro _; show put _ _ _ < _ ∧ put _ _ _ % 4 ≠ 3; simp only [put]; omega
theorem stashcfgWrite x0 : Statement (.stashcfgWrite x0) := nofun
theorem queueWriteResume x0 : Statement (.queueWriteResume x0) := nofun
theorem dispatch : Statement (.dispatch) := nofun
theorem msg x0 : Statement (.msg x0) := nofun
theorem inboxWriteWaiting : Statement (.inboxWriteWaiting) := nofun
theorem rdec x0 : Statement (.rdec x0) := nofun
theorem barrierFlip x0 : Statement (.barrierFlip x0) := nofun
theorem copyStart : Statement (.copyStart) := nofun
theorem copyComplete x0 : Statement (.copyComplete x0) := nofun
theorem matrixCommandStart : Statement (.matrixCommandStart) := nofun
theorem matrixChunk : Statement (.matrixChunk) := nofun
theorem matrixComplete : Statement (.matrixComplete) := nofun
theorem matrixFetchFault : Statement (.matrixFetchFault) := nofun
theorem mfetch : Statement (.mfetch) := nofun
theorem leveeTake : Statement (.leveeTake) := nofun
theorem slab x0 : Statement (.slab x0) := nofun
theorem ldhsStallLimit : Statement (.ldhsStallLimit) := nofun
theorem storeBufferDrain : Statement (.storeBufferDrain) := nofun
theorem fill x0 x1 : Statement (.fill x0 x1) := nofun
theorem data x0 x1 : Statement (.data x0 x1) := nofun
theorem notice x0 x1 : Statement (.notice x0 x1) := nofun
theorem grant x0 x1 : Statement (.grant x0 x1) := nofun
theorem wb x0 x1 : Statement (.wb x0 x1) := nofun
theorem inv x0 : Statement (.inv x0) := nofun
theorem ack x0 x1 : Statement (.ack x0 x1) := nofun
theorem atom x0 : Statement (.atom x0) := nofun
theorem catom x0 : Statement (.catom x0) := nofun
theorem atomr x0 : Statement (.atomr x0) := nofun
theorem mdec x0 x1 : Statement (.mdec x0 x1) := nofun
theorem packetForward x0 : Statement (.packetForward x0) := nofun
theorem ctrl x0 : Statement (.ctrl x0) := nofun
theorem controlFlit x0 x1 : Statement (.controlFlit x0 x1) := nofun
theorem limitPeriod x0 : Statement (.limitPeriod x0) := nofun
theorem linkReplay x0 : Statement (.linkReplay x0) := nofun
theorem linkDown x0 : Statement (.linkDown x0) := nofun
theorem linkUp x0 : Statement (.linkUp x0) := nofun
theorem kernelInvoke : Statement (.kernelInvoke) := nofun
theorem flowTimeout x0 : Statement (.flowTimeout x0) := nofun
theorem deadline x0 : Statement (.deadline x0) := nofun
theorem sliceInstant : Statement (.sliceInstant) := nofun
theorem sliceDeadline : Statement (.sliceDeadline) := nofun
theorem contextRestore x0 : Statement (.contextRestore x0) := nofun
theorem parkRequest x0 : Statement (.parkRequest x0) := nofun
theorem watchdog : Statement (.watchdog) := nofun
theorem haltreq x0 : Statement (.haltreq x0) := nofun
theorem resumereq x0 : Statement (.resumereq x0) := nofun
theorem debugTrigger : Statement (.debugTrigger) := nofun
theorem engstep x0 : Statement (.engstep x0) := nofun
theorem acmdReadContext x0 : Statement (.acmdReadContext x0) := nofun
theorem acmdWriteContext x0 : Statement (.acmdWriteContext x0) := nofun
theorem acmdReadVa x0 : Statement (.acmdReadVa x0) := nofun
theorem acmdWriteVa x0 : Statement (.acmdWriteVa x0) := nofun
theorem pcSample : Statement (.pcSample) := nofun
theorem replayHoldLimit x0 : Statement (.replayHoldLimit x0) := nofun
theorem sramError x0 x1 : Statement (.sramError x0 x1) := nofun
theorem patrolScrub x0 : Statement (.patrolScrub x0) := nofun
theorem awr x0 : Statement (.awr x0) := nofun
theorem aqConfigWrite x0 x1 : Statement (.aqConfigWrite x0 x1) := nofun
theorem registerWrite x0 x1 : Statement (.registerWrite x0 x1) := nofun
theorem ard x0 : Statement (.ard x0) := nofun
theorem mwr x0 : Statement (.mwr x0) := nofun
theorem mrd x0 : Statement (.mrd x0) := nofun
theorem cpl x0 : Statement (.cpl x0) := nofun
theorem doorbell x0 x1 : Statement (.doorbell x0 x1) := nofun
theorem qcreate : Statement (.qcreate) := nofun
theorem qdestroy : Statement (.qdestroy) := nofun
theorem pcreate : Statement (.pcreate) := nofun
theorem pslice : Statement (.pslice) := nofun
theorem loadqp : Statement (.loadqp) := nofun
theorem loadfc : Statement (.loadfc) := nofun
theorem fenceCmd : Statement (.fenceCmd) := nofun
theorem retire : Statement (.retire) := nofun
theorem rasring : Statement (.rasring) := nofun
theorem peat : Statement (.peat) := nofun
theorem watch : Statement (.watch) := nofun
theorem manifest : Statement (.manifest) := nofun
theorem fwload : Statement (.fwload) := nofun
theorem wring : Statement (.wring) := nofun
theorem queueProgramInvoke : Statement (.queueProgramInvoke) := nofun
theorem parkqTimeout x0 : Statement (.parkqTimeout x0) := nofun
theorem gangLaunch : Statement (.gangLaunch) := nofun
theorem gangEnd x0 : Statement (.gangEnd x0) := nofun
theorem rangeChunkTake x0 : Statement (.rangeChunkTake x0) := nofun
theorem interruptHold x0 : Statement (.interruptHold x0) := nofun
theorem powerOn : Statement (.powerOn) := nofun
theorem bootReadyTimeout : Statement (.bootReadyTimeout) := nofun
theorem thermalThrottle x0 x1 : Statement (.thermalThrottle x0 x1) := nofun
theorem barrierOperationAtRoot x0 : Statement (.barrierOperationAtRoot x0) := nofun
theorem bariReachesCore x0 x1 : Statement (.bariReachesCore x0 x1) := nofun
theorem monitorRemoval : Statement (.monitorRemoval) := nofun
theorem hostLinkDown : Statement (.hostLinkDown) := nofun

end Sys2Proof.Laws.EncodedLength
end

