-- ==== Sys2Proof/Laws/Run.lean ====
section
/-! SUPPORT. How one instruction runs: what each outcome of the checks and each end of an effect makes of
the state, and the step from the end of an effect to the words of the statements. -/

namespace Sys2Proof.Machine

/-! ## The ends of an effect -/

theorem finish_ok (i : Instr) (s : State) : finish i (.ok s) = goesOn s (lenOf i) := rfl

theorem finish_jump (i : Instr) (s : State) (pc : Word) : finish i (.jump s pc) = jumpsTo s pc := rfl

theorem finish_done (i : Instr) (s : State) : finish i (.done s) = s := rfl

theorem finish_stall (i : Instr) (s : State) : finish i (.stall s) = { s with own := { s.own with stalled := true } } := rfl

theorem finish_trap {i : Instr} {s : State} {c : BitVec 8} {v : Word} (h : s.own.turn = .core) :
    finish i (.trap s c v) = takeTrap s c v := by simp [finish, h]

theorem finish_rsvd {i : Instr} {s : State} (h : s.own.turn = .core) :
    finish i (.rsvd s) = parkReserved s (word (encode i)) := by simp [finish, h, insnWord]

/-! ## The outcomes of the checks -/

theorem runInstr_pass {i : Instr} {b : State → Res} {s : State} (h : check s i = .pass) :
    runInstr i b s = .next (finish i (b s)) := by simp [runInstr, h]

theorem runInstr_raise {i : Instr} {b : State → Res} {s : State} {c : BitVec 8} {v : Word} (ht : s.own.turn = .core)
    (h : check s i = .raise c v) : runInstr i b s = .next (takeTrap s c v) := by simp [runInstr, h, finish, ht]

theorem runInstr_reserved {i : Instr} {b : State → Res} {s : State} (ht : s.own.turn = .core) (h : check s i = .reserved) :
    runInstr i b s = .next (parkReserved s (word (encode i))) := by simp [runInstr, h, finish, ht, insnWord]

/-- An instruction run this way never stops the machine. -/
theorem runInstr_next (i : Instr) (b : State → Res) (s : State) : ∃ t, runInstr i b s = .next t := ⟨_, rfl⟩

/-! ## From an effect to the words of the statements -/

theorem completes_ok {i : Instr} {b : State → Res} {s t : State} {n : Nat} (he : exec i s = runInstr i b s) (hb : b s = .ok t)
    (hn : lenOf i = n) : Completes s i (goesOn t n) := by
  intro h
  rw [he, runInstr_pass h, hb, finish_ok, hn]

theorem completes_jump {i : Instr} {b : State → Res} {s t : State} {pc : Word} (he : exec i s = runInstr i b s) (hb : b s = .jump t pc) :
    Completes s i (jumpsTo t pc) := by
  intro h
  rw [he, runInstr_pass h, hb, finish_jump]

theorem completes_trap {i : Instr} {b : State → Res} {s t : State} {c : BitVec 8} {v : Word} (he : exec i s = runInstr i b s)
    (hb : b s = .trap t c v) (ht : t.own.turn = .core) : Completes s i (takeTrap t c v) := by
  intro h
  rw [he, runInstr_pass h, hb, finish_trap ht]

theorem completes_done {i : Instr} {b : State → Res} {s t : State} (he : exec i s = runInstr i b s) (hb : b s = .done t) :
    Completes s i t := by
  intro h
  rw [he, runInstr_pass h, hb, finish_done]

/-- An effect that writes one register, with the value it writes put another way. -/
theorem writes_of {i : Instr} {b : State → Res} {s : State} {d : Reg} {v w : Word} {n : Nat} (he : exec i s = runInstr i b s)
    (hb : b s = .ok (writeX s d w)) (hv : w = v) (hn : lenOf i = n) : Writes s i d v n :=
  hv ▸ completes_ok he hb hn

/-! ## A memory access inside a meaning -/

@[simp] theorem run_ok {α : Type} (s : State) (a : α) (f : State → α → Res) : (Acc.ok s a).run f = f s a := rfl
@[simp] theorem run_trap {α : Type} (s : State) (c : BitVec 8) (v : Word) (f : State → α → Res) : (Acc.trap s c v : Acc α).run f = .trap s c v := rfl
@[simp] theorem run_stall {α : Type} (s : State) (f : State → α → Res) : (Acc.stall s : Acc α).run f = .stall s := rfl

/-! ## Memory over the end of an instruction -/

/-- The end of an instruction drops of memory only what came for its accesses. -/
theorem retire_mem (s : State) : (retire s).mem = if s.own.turn = .core then (dropUsed s).mem else s.mem := by
  unfold retire
  split
  · rename_i h; rw [if_pos h]; rfl
  · rename_i h; rw [if_neg fun e => h (by rw [e])]
theorem goesOn_mem (s : State) (n : Nat) : (goesOn s n).mem = if s.own.turn = .core then (dropUsed s).mem else s.mem := by
  unfold goesOn; rw [retire_mem]; simp [dropUsed]
theorem jumpsTo_mem (s : State) (pc : Word) : (jumpsTo s pc).mem = if s.own.turn = .core then (dropUsed s).mem else s.mem := by
  unfold jumpsTo; rw [retire_mem]; simp [dropUsed]

end Sys2Proof.Machine
end

