-- ==== Sys2Proof/Tests/Slice0.lean ====
section
/-! SUPPORT. Tests: words that the spec writes out and what they decode to, one ill-formed term for each check
of WellFormed, single steps on a small state, and for each statement with hypotheses a state that meets
them. -/

namespace Sys2Proof.Tests

open Sys2Proof.Machine

set_option Elab.async false

/-! ## Words of the spec -/

/-- The instruction of a word, if it is one. -/
def reads (w : Nat) : Option Instr := (decode w).toOption

/-- Why a word is rejected. -/
def rejects (w : Nat) : Option Illegal := match decode w with
  | .error e => some e
  | .ok _ => none

/-- The example words of R45 to R50, R61, R74, R81, R82, R95 to R101. -/
theorem test_words_scalar :
    [0x000E6283, 0x67805287, 0x1234528B, 0x020C5013, 0xFF804D13, 0x0000101B, 0x0006639F, 0x0004512B, 0x010002C3, 0x00426043, 0x00540043, 0x00060043,
      0x00080043, 0x000A0043, 0x003C0043, 0x000E0043, 0xE001, 0x00000017].map reads
      = [some (.add 5 6 7), some (.addImm 5 5 0x678), some (.lih 5 0x12345), some (.beq 5 6 32), some (.dbnz 4 0xFFA), some (.jalr 0 1 0), some (.ldd 7 6 0),
        some (.mte 2 5), some (.csrr 5 0x010), some (.csrw 6 0x004), some (.svc 5), some .tret, some .ifence, some (.brk 0), some (.spt 3), some .nop, some .cNop,
        some (.jal 0 0)] := by decide

/-- The example words of R127 to R131. -/
theorem test_words_float :
    [0x0E0E62BB, 0x124E62BB, 0x2E12A53B, 0x3E4E62BB, 0x4E0062BB, 0x3FC0052F, 0xBF800533].map reads
      = [some (.fadd 5 6 7 0 7), some (.fsub 5 6 7 1 1), some (.fmul 10 10 9 0 7), some (.fdiv 5 6 7 1 7), some (.fsqrt 5 6 0 7), some (.fli 10 0x3FC00),
        some (.faddi 10 0xBF800)] := by decide

/-- The example words of R163 to R176. -/
theorem test_words_tasks :
    [0x00D6A047, 0x0216A4C7, 0x04000047, 0x06005047, 0x08000047, 0x0A0C5047, 0x0C005047, 0x0E4C5047, 0x10065047, 0x12065047, 0x14060047, 0x16060047,
      0x180603C7].map reads
      = [some (.send 10 11 3), some (.spawn 9 10 11), some .tend, some (.claim 5), some .unclaim, some (.dcset 5 6), some (.dcdec 5), some (.tagarmAll 5 6),
        some (.bari 5 3), some (.barv 5 3), some (.bard 3), some (.barj 3), some (.barq 7 3)] := by decide

/-- The example words of R180 to R197. -/
theorem test_words_vector :
    [0x0012A1D3, 0x07810853, 0x31032A53, 0x500190D3, 0x61048B53, 0x05C328D7, 0x09841BD7, 0x368000D3, 0x34802153, 0x228108D3, 0x01881857, 0x418801D3,
      0x39801AD3].map reads
      = [some (.vadd 3 4 5 2 0), some (.vfma 0 1 2 0 6), some (.vcvt 4 5 6 0 4), some (.vmand 1 2 3), some (.vgen 6 1 9 0 4), some (.vlds 1 5 6 0 7), some (.vgath 7 3 8 0 6),
        some (.vidx 1 0 2), some (.vbcast 2 4 0 2), some (.vcmplt 1 1 2 0 2), some (.vld 0 3 1 6), some (.vredadd 3 0 1 6), some (.vmovx 5 3 0 6)] := by decide

/-- The example words of R252 to R266. -/
theorem test_words_memory :
    [0x1A0C72CB, 0x2313404B, 0x270CD74B, 0x2B58754B, 0x2E0C704B, 0x3340F3CB, 0x378EF04B, 0x000000CF, 0x0040004F, 0x008000CF, 0x0202004F, 0x100C504F,
      0x120C504F, 0x140C504F, 0x200C54CF, 0x2200504F].map reads
      = [some (.amominu 5 7 6 0 0), some (.amoswp 0 20 9 0 1), some (.cas 14 13 6 0 1), some (.cas2 10 7 12 1), some (.redadd 7 6 0 0), some (.ldacq 7 15 3),
        some (.strel 15 7 3), some (.fence 1), some (.fenceAcq 0), some (.fenceRel 1), some (.fencex 0 0 1), some (.sflush 5 6), some (.sinv 5 6), some (.spf 5 6),
        some (.monarm 9 5 6), some (.mondis 5)] := by decide

/-- The example words of R321 to R339. -/
theorem test_words_engines :
    [0x008C505B, 0x020054DB, 0x040054DB, 0x060054DB, 0x0800505B, 0x20C000DB, 0x2240015B, 0x2400705B, 0x260071DB, 0x2800015B, 0x2A0C50DB, 0x3004505B,
      0x3204505B, 0x340254DB, 0x4000505B, 0x4200505B, 0x4480005B, 0x460054DB, 0x480254DB].map reads
      = [some (.copy 5 6 2), some (.cshp 9 5), some (.tagtst 9 5), some (.tagff 9 5), some (.tagclr 5), some (.mma 1 3), some (.mmac 2 0 1), some (.acld 0 7),
        some (.acst 3 7), some (.acz 2), some (.accvt 1 5 6), some (.gset 5 2), some (.gget 5 2), some (.gdraw 9 5 1), some (.grdef 5 0), some (.grbc 5 0),
        some (.grstep 0 2), some (.ldhs 9 5 0), some (.grq 9 5 1)] := by decide

/-- The example words of R365 to R370 and R417 to R420. -/
theorem test_words_partition :
    [0x0000505F, 0x0200505F, 0x0400505F, 0x060C505F, 0x0014D063, 0x02005063, 0x04000063, 0x10005063, 0x12005063, 0x140C5063, 0x02203AE7].map reads
      = [some (.park 5), some (.ctxsv 5), some (.ctxrs 5), some (.tlbinv 5 6), some (.pktemit 13 10), some (.pktfwd 5), some .pktdrop, some (.signal 5),
        some (.parkq 5), some (.launch 5 6), some (.loopb 21 3 34)] := by decide

/-- Rejected words (R57): an unassigned major opcode, an unassigned function, a field that must be zero, and the
16-bit word 0xFFFF's quadrant. -/
theorem test_words_rejected :
    rejects 0x6B = some Illegal.major ∧ rejects 0x02400003 = some Illegal.function ∧ rejects 0x000E0007 = some Illegal.function ∧ rejects 0x0A020003 = some Illegal.field
      ∧ rejects 0x0 = some Illegal.field := by decide

/-! ## Ill-formed terms -/

/-- R83, R99: DBNZ of x0, in both lengths. -/
theorem test_illformed_dbnz : (Instr.dbnz 0 4).wellFormed = false ∧ (Instr.cDbnz 0 4).wellFormed = false := by decide

/-- R52: a scalar format other than FP32 and FP64, and a conversion from a type to itself. -/
theorem test_illformed_float :
    ([.fadd 1 2 3 2 0, .fsub 1 2 3 2 0, .fmul 1 2 3 2 0, .fdiv 1 2 3 2 0, .fsqrt 1 2 2 0, .fmin 1 2 3 2, .fmax 1 2 3 2, .fcmp 1 2 3 2 0, .fclass 1 2 2,
      .fsgn 1 2 3 2, .fsgnn 1 2 3 2, .fsgnx 1 2 3 2, .fcvt 1 2 3 3 0] : List Instr).all (fun i => !i.wellFormed) = true := by decide

/-- R55, R254: a CAS2 with an odd register of a pair, and a FENCEX with a class beyond 4. -/
theorem test_illformed_memory :
    ([.cas2 11 7 12 1, .cas2 10 7 13 1, .fencex 0 5 0, .fencex 0 0 5] : List Instr).all (fun i => !i.wellFormed) = true := by decide

/-- R53: vector operations of element types that they do not have, and a conversion from a type to itself. -/
theorem test_illformed_vector :
    ([.vfma 1 2 3 0 3, .vdiv 1 2 3 0 3, .vshl 1 2 3 0 4, .vshr 1 2 3 0 4, .vsra 1 2 3 0 4, .vadds 1 2 3 0 4, .vsubs 1 2 3 0 4, .vcmpltu 1 2 3 0 4, .vcvt 1 2 4 0 4,
      .vidx 1 0 4] : List Instr).all (fun i => !i.wellFormed) = true := by decide

/-- R44, R56: x0 in a field that excludes it, and a LOOPB with no distance. -/
theorem test_illformed_short :
    ([.loopb 1 2 0, .cAddi 0 1, .cLi 0 1, .cShli 0 1, .cShri 0 1, .cSrai 0 1, .cAndi 0 1, .cMv 1 0, .cAdd 1 0, .cSub 1 0, .cAnd 1 0, .cOr 1 0, .cXor 1 0,
      .cJalr 1 0, .cLdk 0 1] : List Instr).all (fun i => !i.wellFormed) = true := by decide

/-! ## A small machine -/

/-- A running machine: a supervisor frame of level 20 at 0x1000 with a window of 32 registers, these of
them not zero, and the units declared. -/
def bench (regs : Table Word) : State :=
  let s := placeCore State.reset []
  { s with cpu := { s.cpu with frames := [{ placedFrame with regs := regs }] } }

/-- The same in user mode at level 5. -/
def userBench (regs : Table Word) : State :=
  let s := bench regs
  { s with cpu := { s.cpu with frames := [{ placedFrame with regs := regs, level := 5, thr := 5 }] } }

/-- Something of the state that an outcome answers. -/
def get {α : Type} (o : Host.Outcome State Fault Refusal) (f : State → α) : Option α := match o with
  | .next t => some (f t)
  | _ => none

/-- x5 after each instruction. -/
def x5After (s : State) (is : List Instr) : List (Option Word) := is.map fun i => get (exec i s) (readX · 5)

/-- The pc after each instruction. -/
def pcAfter (s : State) (is : List Instr) : List (Option Word) := is.map fun i => get (exec i s) readPc

/-- The cause and value of the trap that each instruction raises. -/
def trapAfter (s : State) (is : List Instr) : List (Option (Bool × Word × Word)) :=
  is.map fun i => get (exec i s) fun t => (t.cpu.trap.isSome || t.cpu.parked.isSome, t.cpu.trapCause, t.cpu.trapVal)

/-! ## Scalar instructions, single steps -/

/-- R74 to R77 with 7 and −2, worked by hand. -/
theorem test_integer :
    x5After (bench [(6, 7), (7, 0xFFFFFFFFFFFFFFFE)])
        [.add 5 6 7, .sub 5 6 7, .mul 5 6 7, .mulh 5 6 7, .mulhu 5 6 7, .div 5 6 7, .divu 5 6 7, .rem 5 6 7, .remu 5 6 7, .and 5 6 7, .or 5 6 7, .xor 5 6 7,
          .andn 5 6 7, .shl 5 6 7, .shr 5 7 6, .sra 5 7 6, .rot 5 6 6, .min 5 6 7, .max 5 6 7, .minu 5 6 7, .maxu 5 6 7, .slt 5 7 6, .sltu 5 7 6, .clz 5 6,
          .ctz 5 7, .popc 5 7, .lea 5 6 7 3]
      = [some 5, some 9, some 0xFFFFFFFFFFFFFFF2, some 0xFFFFFFFFFFFFFFFF, some 6, some 0xFFFFFFFFFFFFFFFD, some 0, some 1, some 7, some 6, some 0xFFFFFFFFFFFFFFFF,
        some 0xFFFFFFFFFFFFFFF9, some 1, some 0xC000000000000000, some 0x01FFFFFFFFFFFFFF, some 0xFFFFFFFFFFFFFFFF, some 0x0E00000000000000, some 0xFFFFFFFFFFFFFFFE,
        some 7, some 7, some 0xFFFFFFFFFFFFFFFE, some 1, some 0, some 61, some 1, some 63, some 0xFFFFFFFFFFFFFFF7] := by decide

/-- The table of R75: division by zero, and −2^63 by −1. -/
theorem test_division :
    x5After (bench [(6, 7)]) [.div 5 6 7, .divu 5 6 7, .rem 5 6 7, .remu 5 6 7] = [some 0x7FFFFFFFFFFFFFFF, some 0xFFFFFFFFFFFFFFFF, some 7, some 7]
      ∧ x5After (bench [(6, 0xFFFFFFFFFFFFFFF9)]) [.div 5 6 7, .div 5 7 7] = [some 0x8000000000000000, some 0]
      ∧ x5After (bench [(6, 0x8000000000000000), (7, 0xFFFFFFFFFFFFFFFF)]) [.div 5 6 7, .rem 5 6 7] = [some 0x7FFFFFFFFFFFFFFF, some 0] := by decide

/-- R78, R79: selection by the old rd, and a field of eight bits at 4, zero- and sign-extended, and put back. -/
theorem test_bits :
    x5After (bench [(5, 1), (6, 2), (7, 3)]) [.sel 5 6 7] = [some 2] ∧ x5After (bench [(6, 2), (7, 3)]) [.sel 5 6 7] = [some 3]
      ∧ x5After (bench [(5, 0xF0F), (6, 0xABCD), (7, 0x704)]) [.bext 5 6 7, .bins 5 6 7] = [some 0xBC, some 0xCDF]
      ∧ x5After (bench [(6, 0xABCD), (7, 0x10704)]) [.bext 5 6 7] = [some 0xFFFFFFFFFFFFFFBC] := by decide

/-- R80, R81: immediates are sign-extended, −1 here; the pc of ADDPC is 0x1000. -/
theorem test_immediate :
    x5After (bench [(6, 7)]) [.addImm 5 6 0xFFF, .sltImm 5 6 0xFFF, .sltuImm 5 6 0xFFF, .andImm 5 6 0xFFF, .orImm 5 6 0xFFF, .xorImm 5 6 0xFFF, .shli 5 6 63,
        .shri 5 6 1, .srai 5 6 1, .roti 5 6 1, .lih 5 0x12345, .addpc 5 0xFFFFF]
      = [some 6, some 0, some 1, some 7, some 0xFFFFFFFFFFFFFFFF, some 0xFFFFFFFFFFFFFFF8, some 0x8000000000000000, some 3, some 3, some 0x8000000000000003,
        some 0x12345000, some 0] := by decide

/-- R82 to R84: taken and not taken, links, and the target of JALR. -/
theorem test_branches :
    pcAfter (bench [(6, 7), (7, 0xFFFFFFFFFFFFFFFE)]) [.beq 6 7 32, .bne 6 7 32, .blt 7 6 32, .bge 7 6 32, .bltu 6 7 0xFFA, .bgeu 6 7 32, .dbnz 6 0xFFA, .jal 5 2,
        .jalr 5 6 1]
      = [some 0x1004, some 0x1040, some 0x1040, some 0x1004, some 0xFF4, some 0x1004, some 0xFF4, some 0x1004, some 8]
      ∧ x5After (bench [(6, 7)]) [.jal 5 2, .jalr 5 6 1] = [some 0x1004, some 0x1004] := by decide

/-- R44: the 16-bit forms. -/
theorem test_short :
    x5After (bench [(5, 12), (6, 7)]) [.cAddi 5 0x3F, .cLi 5 0x20, .cShli 5 1, .cShri 5 2, .cSrai 5 2, .cAndi 5 8, .cMv 6 5, .cAdd 6 5, .cSub 6 5, .cAnd 6 5, .cOr 6 5, .cXor 6 5]
      = [some 11, some 0xFFFFFFFFFFFFFFE0, some 24, some 3, some 3, some 8, some 7, some 19, some 5, some 4, some 15, some 11]
      ∧ pcAfter (bench [(5, 12), (6, 8)]) [.cNop, .cBeqz 7 0x3F, .cBnez 7 0x3F, .cJ 2, .cJr 6, .cJalr 6 5, .cDbnz 5 0x3E]
        = [some 0x1002, some 0xFFE, some 0x1002, some 0x1004, some 8, some 8, some 0xFFC]
      ∧ x5After (bench [(6, 8)]) [.cJalr 6 5] = [some 0x1002] := by decide

/-- x5 and FPCTL after each instruction. -/
def floatAfter (s : State) (is : List Instr) : List (Option (Word × Word)) := is.map fun i => get (exec i s) fun t => (readX t 5, csrRead t 0x004)

/-- The conversions of the table of R136: −2.75 to an integer toward zero and its inexact flag, 3.0e9 saturated,
−1.0 to an unsigned word, a tie to BF16, and 65,520 to FP16 to nearest and toward zero. -/
theorem test_convert :
    floatAfter (bench [(6, 0xC0300000)]) [.fcvt 5 6 2 0 1] = [some (0xFFFFFFFFFFFFFFFE, 0x20)]
      ∧ floatAfter (bench [(6, 0x4F32D05E)]) [.fcvt 5 6 2 0 7] = [some (0x7FFFFFFF, 0x200)]
      ∧ floatAfter (bench [(6, 0xBF800000)]) [.fcvt 5 6 3 0 7] = [some (0, 0x200)]
      ∧ floatAfter (bench [(6, 0x3F808000)]) [.fcvt 5 6 6 0 0, .fcvt 5 6 6 0 3] = [some (0x3F80, 0x20), some (0x3F81, 0x20)]
      ∧ floatAfter (bench [(6, 0x477FF000)]) [.fcvt 5 6 7 0 0, .fcvt 5 6 7 0 1] = [some (0x7C00, 0xA0), some (0x7BFF, 0x20)] := by decide

/-- Input 1 of the Horner program: −1.015625 + 0.1 as FADD and as FFMA of −2.03125 and 0.5; input 3's sum. -/
theorem test_horner :
    floatAfter (bench [(5, 0xBF820000), (6, 0xBF820000), (7, 0x3DCCD000)]) [.fadd 5 6 7 0 7, .faddi 5 0x3DCCD] = [some (0xBF6A6600, 0), some (0xBF6A6600, 0)]
      ∧ floatAfter (bench [(5, 0xC0020000), (6, 0x3F000000), (7, 0x3DCCCCCD)]) [.ffma 5 5 6 7 0 7] = [some (0xBF6A6666, 0x20)]
      ∧ floatAfter (bench [(6, 0xBFA00000), (7, 0x3DCCD000)]) [.fadd 5 6 7 0 0] = [some (0xBF933300, 0)] := by decide

/-- R127 to R135, worked by hand: 6 − 2, 6 × 2, 6 / 2, the root of 4, the smaller and larger, 2 < 6, the class of +6, signs. -/
theorem test_float :
    floatAfter (bench [(5, 0x40000000), (6, 0x40C00000), (7, 0x40000000), (8, 0x40800000)])
        [.fsub 5 6 7 0 0, .fmul 5 6 7 0 0, .fdiv 5 6 7 0 0, .fsqrt 5 8 0 0, .fmin 5 6 7 0, .fmax 5 6 7 0, .fcmp 5 7 6 0 1, .fsgn 5 6 7 0, .fsgnn 5 6 7 0,
          .fsgnx 5 6 7 0, .fli 5 0x40C00, .fmuli 5 0x40C00]
      = [some (0x40800000, 0), some (0x41400000, 0), some (0x40400000, 0), some (0x40000000, 0), some (0x40000000, 0), some (0x40C00000, 0), some (1, 0),
        some (0x40C00000, 0), some (0xC0C00000, 0), some (0x40C00000, 0), some (0x40C00000, 0), some (0x41400000, 0)] := by decide

/-- R116: 0 / 0 is the canonical NaN with NV; 6 / 0 is infinite with DZ. -/
theorem test_invalid :
    floatAfter (bench [(6, 0x40C00000)]) [.fdiv 5 7 7 0 0, .fdiv 5 6 7 0 0] = [some (0x7FC00000, 0x200), some (0x7F800000, 0x100)]
      ∧ floatAfter (bench [(6, 0x7FF0000000000000)]) [.fsub 5 6 6 1 0] = [some (0x7FF8000000000000, 0x200)] := by decide

/-! ## Local memory, constants, extension registers -/

/-- The small machine with bytes in its own local memory from an address up. -/
def benchMem (regs : Table Word) (a : Nat) (bs : List Byte) : State :=
  let s := bench regs
  { s with mem := { s.mem with lmem := putBytes s.mem.lmem (ownKey s a) bs } }

/-- The first load of the example of R86: the doubleword at 0x207C crosses a line; and the forms of R86 over the bytes
FE FF 80 00. -/
theorem test_loads :
    x5After (benchMem [(6, 0x207C)] 0x207C [5]) [.ldd 5 6 0] = [some 5]
      ∧ x5After (benchMem [(6, 0x3000)] 0x3000 [0xFE, 0xFF, 0x80, 0x80]) [.ldb 5 6 0, .ldbu 5 6 0, .ldh 5 6 0, .ldhu 5 6 0, .ldw 5 6 0, .ldwu 5 6 0, .cLdw 6 5, .cLdd 6 5]
        = [some 0xFFFFFFFFFFFFFFFE, some 0xFE, some 0xFFFFFFFFFFFFFFFE, some 0xFFFE, some 0xFFFFFFFF8080FFFE, some 0x8080FFFE, some 0xFFFFFFFF8080FFFE, some 0x8080FFFE]
      ∧ x5After (benchMem [(2, 0x3000)] 0x3008 [7]) [.cLddSp 5 1] = [some 7] := by decide

/-- R86: a store writes the low bytes, least significant first, and leaves the byte after them. -/
theorem test_stores :
    [Instr.stb 7 6 0, .sth 7 6 0, .stw 7 6 0, .std 7 6 0, .cStd 6 7, .cStw 6 7].map
        (fun i => get (exec i (benchMem [(6, 0x3000), (7, 0x1122334455667788)] 0x3000 [1, 1, 1, 1, 1, 1, 1, 1])) fun t => ofBytes (getLocals t (ownKey t 0x3000) 8))
      = [some 0x0101010101010188, some 0x0101010101017788, some 0x0101010155667788, some 0x1122334455667788, some 0x1122334455667788, some 0x0101010155667788]
      ∧ get (exec (.cStdSp 7 1) (bench [(2, 0x3000), (7, 9)])) (fun t => ofBytes (getLocals t (ownKey t 0x3008) 8)) = some 9
      ∧ get (exec (.stx 1 6 8) { bench [(6, 0x3000)] with cpu := { (bench [(6, 0x3000)]).cpu with e := [(81, 4)] } }) (fun t => ofBytes (getLocals t (ownKey t 0x3008) 8)) = some 4 := by
  decide

/-- R93, R94: entry 5 of the constant window is the doubleword at 40. -/
theorem test_constants :
    x5After (benchMem [(6, 7)] 40 [3]) [.ldk 5 5, .addK 5 6 5, .subK 5 6 5, .mulK 5 6 5, .andK 5 6 5, .orK 5 6 5, .xorK 5 6 5, .cLdk 5 5]
      = [some 3, some 10, some 4, some 21, some 3, some 7, some 4, some 3]
      ∧ get (exec (.ldxK 1 5) (benchMem [] 40 [3])) (readE · 1) = some 3 ∧ get (exec (.mte 1 6) (bench [(6, 7)])) (readE · 1) = some 7
      ∧ get (exec (.ldx 1 6 0) (benchMem [(6, 0x3000)] 0x3000 [3])) (readE · 1) = some 3
      ∧ x5After { bench [] with cpu := { (bench []).cpu with e := [(82, 4)] } } [.mfe 5 2] = [some 4]
      ∧ floatAfter (benchMem [(5, 0x3F800000), (6, 0x40000000)] 40 [0, 0, 0x40, 0x40]) [.faddK 5 6 0 5, .fsubK 5 6 0 5, .fmulK 5 6 0 5, .ffmaK 5 6 0 5]
        = [some (0x40A00000, 0), some (0xBF800000, 0), some (0x40C00000, 0), some (0x40A00000, 0)] := by decide

/-- R44, R23, R26, R87: a hole of the address space, an end beyond it, the constant window in user mode, and the 16-bit
word's value in TRAPVAL. -/
theorem test_access_causes :
    trapAfter (bench [(6, 0x500000), (7, 0x7FFFFFFFFFFFFF)]) [.ldd 5 6 0, .ldh 5 7 0] = [some (true, zextField causeAccess, 0x500000), some (true, zextField causeAddr, 0x7FFFFFFFFFFFFF)]
      ∧ trapAfter (userBench [(6, 8)]) [.std 5 6 0] = [some (true, zextField causeAccess, 8)]
      ∧ trapAfter (bench [(6, 9)]) [.jalr 5 6 0, .cBrk] = [some (true, zextField causeMisalign, 9), some (true, zextField causeBrk, 0xF001)] := by decide

/-! ## Global memory -/

/-- The translation worked through after R221: partition 5 on device 2, the page at 0x1_0000_0000 on the frame
0xA0 of the device, in the small machine; KEYMASK admits key 0, and the
doubleword at 0x1_0000_3480 holds 0x8000_0005. -/
def benchMapped (regs : Table Word) : State :=
  let s := bench regs
  let m := putBytes s.mem.pmem 0x100000 (toBytes 8 0x110001)
  let m := putBytes m 0x110040 (toBytes 8 0x120001)
  let m := putBytes m 0x120000 (toBytes 8 0x02140000_00A0006D)
  let m := putBytes m 0xA03480 (toBytes 8 0x80000005)
  { s with cpu := { s.cpu with coreId := 0x800, partid := 5, keymask := 1, xroot := 0x100001 }, mem := { s.mem with pmem := m } }

/-- A word of home memory after each instruction, and after the home slice has performed what the instruction sent there. -/
def homeAfter (s : State) (pa n : Nat) (is : List Instr) : List (Option (Nat × Word)) :=
  is.map fun i => get (exec i s) fun t =>
    let u := match t.mem.kept with
      | k :: _ => retryKept k t
      | [] => t
    (ofBytes (homeBytes u 0 pa n), readX u 5)

set_option maxRecDepth 4000 in
/-- The load of the example, and a page that is not mapped: XLATE with the failing entry in XFSTAT. -/
theorem test_translation :
    x5After (benchMapped [(6, 0x100003480)]) [.ldd 5 6 0, .ldw 5 6 0] = [some 0x80000005, some 0xFFFFFFFF80000005]
      ∧ trapAfter (benchMapped [(6, 0x100010000)]) [.ldd 5 6 0] = [some (true, zextField causeXlate, 0x100010000)]
      ∧ get (exec (.ldd 5 6 0) (benchMapped [(6, 0x100010000)])) (fun t => t.cpu.xfstat) = some 0x1C := by decide

/-- R252 to R254 on the word 0x8000_0005 with operand 7: the old value goes to x5, sign-extended, and memory takes the new
one. -/
theorem test_atomics :
    homeAfter (benchMapped [(5, 5), (6, 0x100003480), (7, 7)]) 0xA03480 4
        [.amoadd 5 6 7 0 0, .amoand 5 6 7 0 0, .amoor 5 6 7 0 0, .amoxor 5 6 7 0 0, .amomin 5 6 7 0 0, .amomax 5 6 7 0 0, .amominu 5 6 7 0 0, .amomaxu 5 6 7 0 0,
          .amoswp 5 6 7 0 0]
      = [0x8000000C, 5, 0x80000007, 0x80000002, 0x80000005, 7, 7, 0x80000005, 7].map fun v => some (v, 0xFFFFFFFF80000005) := by decide

/-- R253, R254: a compare-and-swap that matches and one that does not; CAS2 of the pair x10 and x11 against x12 and x13. -/
theorem test_compare_swap :
    homeAfter (benchMapped [(5, 0x80000005), (6, 0x100003480), (7, 7)]) 0xA03480 8 [.cas 5 6 7 0 1, .redadd 6 7 0 0] = [some (7, 0x80000005), some (0x8000000C, 0x80000005)]
      ∧ homeAfter (benchMapped [(5, 6), (6, 0x100003480), (7, 7)]) 0xA03480 8 [.cas 5 6 7 0 1] = [some (0x80000005, 0x80000005)]
      ∧ homeAfter (benchMapped [(6, 0x100003480), (10, 0x80000005), (12, 1), (13, 2)]) 0xA03480 16 [.cas2 10 6 12 0] = [some (0x20000000000000001, 0)] := by decide

set_option maxRecDepth 4000 in
/-- R256, R257: an acquire load, and a release store that is home at once. -/
theorem test_acquire_release :
    homeAfter (benchMapped [(6, 0x100003480), (7, 9)]) 0xA03480 8 [.ldacq 5 6 2, .strel 6 7 3] = [some (0x80000005, 0xFFFFFFFF80000005), some (9, 0)] := by decide

/-! ## States that meet the hypotheses: the step, registers, checks -/

/-- The small machine of the host's placing, with `add x5, x6, x7` at its pc. -/
def placed : State := State.reset.withFetchWord 32 0x000E6283

set_option maxRecDepth 4000 in
/-- For StepRunsDecodedInstruction. -/
theorem meets_step :
    ∃ (s s1 s2 : State) (rest : List Act) (w len : Nat) (i : Instr),
      s.own.agenda = .turn .core :: rest ∧ beforeFetch (coreTurn s rest) = s1 ∧ canRun (coreTurn s rest) = true ∧ (coreTurn s rest).cpu.parkWaits = false
        ∧ (pendingMfetch (coreTurn s rest)).isSome = false ∧ (dispatchLevel (coreTurn s rest)).isSome = false ∧ Running (coreTurn s rest)
        ∧ fetchInstr s1 (isUser s1) (readPc s1).toNat = .ok s2 (w, len) ∧ poisonedCode s1 (readPc s1).toNat = none
        ∧ (len = 4 → poisonedCode s2 ((readPc s1).toNat + 2) = none) ∧ decode w = .ok i
        ∧ get (exec i s2) (·.cpu.stepping) = some false :=
  ⟨placed, coreTurn placed [], coreTurn placed [], [], 0x000E6283, 4, .add 5 6 7, rfl, rfl, by decide, rfl, by decide, by decide, .inr (by decide), rfl, rfl, fun _ => rfl, rfl, rfl⟩

/-- For FetchReadsOwnLocalMemory: the lowest and the highest address. -/
theorem meets_fetch :
    (∀ a ∈ [0x800, 0x802, 0xFFFFC, 0xFFFFE], inStash (bench []) (ownKey (bench []) a) 2 = false) ∧ (bench []).cpu.stale = [] ∧ (bench []).mem.lpoison = []
      ∧ (bench []).mem.shadows = [] ∧ 0x800 ≤ 0x800 ∧ 0xFFFFC + 4 ≤ 0x100000 := by decide

/-- For DecodeOfEncode and RaisedCheckTraps. -/
theorem meets_encode : (Instr.cas2 10 7 12 1).wellFormed = true ∧ (Instr.cas2 10 7 12 1).isEvent = false := by decide

/-- For StepKeepsMemoryForm: a placed `std x7, 0(x6)`. -/
theorem meets_memory_form : (State.reset.withFetchWord 32 0x000663A3).Inv ∧ (get (step (State.reset.withFetchWord 32 0x000663A3)) (·.cpu.retired)) = some 1 := by
  unfold State.Inv; decide

/-- For RegisterWriteFrame and RegisterInstructionFrame: x31 and x0. -/
theorem meets_frames :
    Running (bench []) ∧ soleDestination (.add 31 6 7) = some 31 ∧ check (bench []) (.add 31 6 7) = .pass ∧ soleDestination (.add 0 6 7) = some 0
      ∧ check (bench []) (.add 0 6 7) = .pass ∧ get (exec (.add 31 6 7) (bench [(6, 1), (7, 2)])) (readX · 31) = some 3 :=
  ⟨.inr (by decide), by decide⟩

/-- A frame of eight registers, with neither VEC nor MAT, and x3 poisoned. -/
def narrow : State :=
  let s := bench []
  { s with cpu := { s.cpu with frames := [{ placedFrame with wcode := 0, vec := false, mat := false, poison := [{ reg := 3, addr := 0x44 }] }] } }

/-- A machine whose q3 holds eight entries. -/
def fullQ3 : State :=
  let s := bench []
  { s with cpu := { s.cpu with q3 := List.replicate 8 (.decrement 0 5 0) } }

/-- For CheckOrder and RaisedCheckTraps, clause by clause: ILLEGAL, PRIV, the checks of R95, UNDECL, WINDOW at x8 of a
window of 8, RSVD, POISON, and none. -/
theorem meets_checks :
    (bench []).own.turn = .core
      ∧ check (bench []) (.dbnz 0 4) = .raise causeIllegal (word (encode (.dbnz 0 4))) ∧ isBounded .pktdrop = true ∧ check (bench []) .pktdrop = .raise causeIllegal 0x04000063
      ∧ check (userBench []) .tret = .raise causePriv 0x00060043 ∧ check (bench []) (.csrr 5 0x7F0) = .raise causeIllegal (word (encode (.csrr 5 0x7F0)))
      ∧ check narrow (.vand 1 2 3 0 0) = .raise causeUndecl (word (encode (.vand 1 2 3 0 0))) ∧ check narrow (.add 7 9 8) = .raise causeWindow 8
      ∧ check narrow (.add 7 7 7) = .pass ∧ check narrow (.fadd 5 6 7 0 5) = .reserved ∧ check narrow (.add 5 3 6) = .poisoned 0x44 ∧ (bench []).cpu.inFlight = []
      ∧ poisonedSource narrow (.add 5 7 6) = none ∧ check fullQ3 (.send 10 11 3) = .full ∧ queueFull fullQ3 (.send 10 11 3) = true ∧ fullQ3.cpu.stepping = false := by decide

/-- The checks pass: for every statement about what an instruction does, the compute core's instructions of R74 to R101. -/
theorem meets_pass_scalar :
    ([.add 1 2 3, .sub 1 2 3, .mul 1 2 3, .mulh 1 2 3, .mulhu 1 2 3, .div 1 2 3, .divu 1 2 3, .rem 1 2 3, .remu 1 2 3, .and 1 2 3, .or 1 2 3, .xor 1 2 3, .andn 1 2 3,
      .shl 1 2 3, .shr 1 2 3, .sra 1 2 3, .rot 1 2 3, .min 1 2 3, .max 1 2 3, .minu 1 2 3, .maxu 1 2 3, .slt 1 2 3, .sltu 1 2 3, .clz 1 2, .ctz 1 2, .popc 1 2,
      .sel 1 2 3, .sel 0 2 3, .bext 1 2 3, .bins 1 2 3, .lea 1 2 3 1, .addImm 1 2 3, .sltImm 1 2 3, .sltuImm 1 2 3, .andImm 1 2 3, .orImm 1 2 3, .xorImm 1 2 3, .shli 1 2 3,
      .shri 1 2 3, .srai 1 2 3, .roti 1 2 3, .lih 1 2, .addpc 1 2, .beq 1 2 3, .bne 1 2 3, .blt 1 2 3, .bge 1 2 3, .bltu 1 2 3, .bgeu 1 2 3, .dbnz 1 2, .jal 1 2, .jalr 1 2 4,
      .jalr 1 2 3, .ldb 1 2 3, .ldh 1 2 3, .ldw 1 2 3, .ldd 1 2 3, .ldbu 1 2 3, .ldhu 1 2 3, .ldwu 1 2 3, .stb 1 2 3, .sth 1 2 3, .stw 1 2 3, .std 1 2 3, .ldk 1 2, .addK 1 2 3,
      .subK 1 2 3, .mulK 1 2 3, .andK 1 2 3, .orK 1 2 3, .xorK 1 2 3, .ldxK 1 2, .faddK 1 2 0 3, .fmulK 1 2 0 3, .ffmaK 1 2 0 3, .fsubK 1 2 0 3, .ldx 1 2 3, .stx 1 2 3, .mte 1 2,
      .mfe 1 2, .fli 1 2, .faddi 1 2, .fmuli 1 2, .fadd 1 2 3 0 7, .fsub 1 2 3 1 0, .fmul 1 2 3 0 1, .fdiv 1 2 3 0 2, .fsqrt 1 2 0 3, .fmin 1 2 3 0, .fmax 1 2 3 0, .fcmp 1 2 3 0 0,
      .fclass 1 2 0, .fsgn 1 2 3 0, .fsgnn 1 2 3 0, .fsgnx 1 2 3 0, .fcvt 1 2 3 0 4, .ffma 1 2 3 4 0 7, .csrr 1 0x10, .csrw 1 0x50, .svc 1, .ifence, .brk 1, .spt 1, .nop] : List Instr).all
        (fun i => decide (check (bench []) i = .pass)) = true := by decide

/-- The same of the 16-bit forms and of the instructions of tasks, vectors and memory. -/
theorem meets_pass_tasks :
    ([.cAddi 1 2, .cLi 1 2, .cShli 1 2, .cShri 1 2, .cSrai 1 2, .cAndi 1 2, .cLddSp 1 2, .cStdSp 1 2, .cMv 1 2, .cAdd 1 2, .cSub 1 2, .cAnd 1 2, .cOr 1 2, .cXor 1 2, .cJr 1,
      .cJalr 1 2, .cLdd 1 2, .cStd 1 2, .cLdw 1 2, .cStw 1 2, .cTend, .cNop, .cBrk, .cBeqz 1 2, .cBnez 1 2, .cJ 1, .cDbnz 1 2, .cLdk 1 2, .send 1 2 3, .spawn 1 2 3, .tend,
      .claim 1, .unclaim, .dcset 1 2, .dcdec 1, .tagarmAny 1 2, .tagarmAll 1 2, .bari 1 2, .barv 1 2, .bard 1, .barj 1, .barq 1 2, .amoadd 1 2 3 0 0, .amoand 1 2 3 0 0,
      .amoor 1 2 3 0 0, .amoxor 1 2 3 0 0, .amomin 1 2 3 0 0, .amomax 1 2 3 0 0, .amominu 1 2 3 0 0, .amomaxu 1 2 3 0 0, .amoswp 1 2 3 3 1, .cas 1 2 3 0 1, .cas2 2 6 4 0,
      .redadd 1 2 0 0, .ldacq 1 2 3, .strel 1 2 3, .fence 1, .fenceAcq 1, .fenceRel 1, .fencex 1 2 3, .sflush 1 2, .sinv 1 2, .spf 1 2, .monarm 1 2 3, .mondis 1] : List Instr).all
        (fun i => decide (check (bench []) i = .pass)) = true := by decide

/-- The same of the vector, engine and partition instructions. -/
theorem meets_pass_units :
    ([.vadd 1 2 3 0 0, .vsub 1 2 3 0 0, .vmul 1 2 3 0 0, .vfma 1 2 3 0 6, .vdiv 1 2 3 0 6, .vmin 1 2 3 0 0, .vmax 1 2 3 0 0, .vabs 1 2 0 0, .vand 1 2 3 0 0, .vor 1 2 3 0 0,
      .vxor 1 2 3 0 0, .vshl 1 2 3 0 0, .vshr 1 2 3 0 0, .vsra 1 2 3 0 0, .vadds 1 2 3 0 0, .vsubs 1 2 3 0 0, .vcmpeq 1 2 3 0 0, .vcmplt 1 2 3 0 0, .vcmple 1 2 3 0 0,
      .vcmpltu 1 2 3 0 0, .vsel 1 2 3 0 0, .vcvt 1 2 6 0 4, .vperm 1 2 3 0 0, .vbcast 1 2 0 0, .vidx 1 0 0, .vmovx 1 2 3 0, .vredadd 1 2 0 0, .vredmin 1 2 0 0, .vredmax 1 2 0 0,
      .vmand 1 2 3, .vmor 1 2 3, .vmxor 1 2 3, .vmpopc 1 2, .vgen 1 2 3 0 4, .vld 1 2 0 0, .vst 1 2 0 0, .vlds 1 2 3 0 0, .vsts 1 2 3 0 0, .vgath 1 2 3 0 2, .vscat 1 2 3 0 2,
      .copy 1 2 3, .cshp 1 2, .tagtst 1 2, .tagff 1 2, .tagclr 1, .mma 1 2, .mmac 1 2 3, .acld 1 2, .acst 1 2, .acz 1, .accvt 1 2 3, .gset 1 2, .gget 1 2, .gdraw 1 2 3, .grdef 1 2,
      .grbc 1 2, .grstep 1 2, .ldhs 1 2 3, .grq 1 2 3, .park 1, .ctxsv 1, .ctxrs 1, .tlbinv 1 2] : List Instr).all
        (fun i => decide (check (bench []) i = .pass)) = true := by decide

/-! ## States that meet the hypotheses: scalar instructions, memory, traps -/

/-- How an access ends: 0 performed, 1 a cause, 2 a wait. -/
def ends {α : Type} (x : Acc α) : Nat := match x with
  | .ok _ _ => 0
  | .trap _ _ _ => 1
  | .stall _ => 2

/-- The pieces of an access that was performed. -/
def pieces (x : Acc (List Piece)) : List Piece := match x with
  | .ok _ ps => ps
  | _ => []

/-- For BitOperations: a register of zero, and one whose highest set bit is 63 and lowest 62; the field
of 64 bits and the field at 63. -/
theorem meets_bits :
    (0 : Word).getLsbD 63 = false ∧ (0xC000000000000000 : Word).getLsbD 63 = true ∧ (0xC000000000000000 : Word).getLsbD 62 = true
      ∧ (∀ m, 63 < m → (0xC000000000000000 : Word).getLsbD m = false) ∧ (∀ m, m < 62 → (0xC000000000000000 : Word).getLsbD m = false)
      ∧ x5After (bench [(6, 0xC000000000000000)]) [.clz 5 6, .ctz 5 6, .clz 5 7, .ctz 5 7] = [some 0, some 62, some 64, some 64] :=
  ⟨by decide, by decide, by decide, fun _ h => BitVec.getLsbD_of_ge _ _ h, by decide, by decide⟩

/-- A queue program's invocation in slot 0, on its turn. -/
def benchProgram (x : Table Word) : State :=
  let s := placeCfe State.reset 0x17
  let r : QpRun := { queue := 1, command := List.replicate 64 0, prog := [0x17], sets := [4], launched := false, scratch := [], pc := 0, x := x, fpctl := 0 }
  { s with cfe := { s.cfe with slots := s.cfe.slots.set 0 (some r) }, own := { s.own with turn := .cfe 0 } }

/-- For Jumps, clause by clause. -/
theorem meets_jumps :
    (bench []).own.turn = .core ∧ (benchProgram []).own.turn = .cfe 0 ∧ check (benchProgram []) (.jal 0 0) = .pass
      ∧ check (benchProgram []) (.jal 5 1) = .pass ∧ (1 : BitVec 20) ≠ 0
      ∧ (readX (bench [(6, 7)]) 6 + BitVec.ofInt 64 (1 : BitVec 12).toInt).getLsbD 0 = false
      ∧ (readX (bench [(6, 7)]) 6 + BitVec.ofInt 64 (0 : BitVec 12).toInt).getLsbD 0 = true
      ∧ get (exec (.jal 0 0) (benchProgram [])) (fun t => t.cfe.slots.get 0) = some none := by decide

/-- For LoadsAndStores, LocalAccesses and StoreFrame: accesses that are performed, at address 0 and at the end of local
memory, and accesses that raise a cause. -/
theorem meets_local :
    ends (load (bench []) 0 1) = 0 ∧ ends (load (bench []) 0xFFFFF 1) = 0 ∧ ends (load (bench []) 0xFFFC0 64) = 0 ∧ ends (store (bench []) 0x800 [1]) = 0
      ∧ ends (store (bench []) 0 [1]) = 0 ∧ ends (store (bench []) 0xFFFFF [1]) = 0 ∧ ends (load (bench []) 0x500000 1) = 1 ∧ ends (store (bench []) 0x500000 [1]) = 1
      ∧ isFenced (bench []) 0 = false ∧ (bench []).mem.shadows = [] ∧ isUser (bench []) = false ∧ (bench []).mem.buffer.length ≤ 16 ∧ inStash (bench []) (ownKey (bench []) 0) 64 = false
      ∧ inStash (bench []) (ownKey (bench []) 0xFFFFF) 1 = false ∧ ((bench []).mem.lpoison.get 0) = false
      ∧ (pieces (resolve (bench []) .store false 0x207C 8)).map (fun p => (p.key, p.n)) = [(0x207C, 4), (0x2080, 4)] := by decide

set_option maxRecDepth 4000 in
/-- For StoreFrame: a global store that is performed, and its piece. -/
theorem meets_global_store :
    ends (store (benchMapped []) 0x100003480 [1, 2]) = 0
      ∧ (pieces (resolve (benchMapped []) .store false 0x100003480 2)).map (fun p => (p.key, p.n)) = [(0xA03480, 2)]
      ∧ (pieces (resolve (benchMapped []) .store false 0x100003480 2)).map pieceLine = [{ dev := 2, line := 0x14069 }]
      ∧ isHome (benchMapped []) { dev := 2, line := 0x14069 } = true := by decide

/-- For StoreFrame: the slice of that piece's line has room. -/
theorem meets_global_room : hasRoom (benchMapped []) { dev := 2, line := 0x14069 } := .inr ⟨0, 1, by decide⟩

/-- The small machine with a stash. -/
def benchStash : State := { bench [] with cpu := { (bench []).cpu with stashcfg := 1 } }

/-- For EarlyAccessCauses, clause by clause at the edges: the first access beyond 2^55, beyond the last local byte, of
the stash, of the constant window in user mode, and over the end of local memory. -/
theorem meets_early :
    2 ^ 55 < (2 ^ 55 - 1) + 2 ∧ ends (load (bench []) 0x7FFFFFFFFFFFFF 2) = 1 ∧ 0x500000 < 0x4FFFFF + 2 ∧ ends (load (bench []) 0x4FFFFF 2) = 1 ∧ ends (load (bench []) 0xFFFFFFFF 1) = 1
      ∧ (stashSpan benchStash).1 < 0x100000 ∧ inStash benchStash (localKey benchStash (stashSpan benchStash).1) 1 = true
      ∧ ends (load benchStash (BitVec.ofNat 64 (stashSpan benchStash).1) 1) = 1 ∧ isUser (userBench []) = true ∧ ends (store (userBench []) 0x7FF [1]) = 1 ∧ ends (load (bench []) 0xFFFFF 2) = 1 := by decide

/-- The small machine with a poisoned granule in the constant window. -/
def benchPoison : State := { bench [] with mem := { (bench []).mem with lpoison := [(5, true)] } }

/-- For ConstantsAndExtensions and FloatConstantsAndConversions. -/
theorem meets_constants :
    localPoison (bench []) (ownKey (bench []) 40) 8 = false ∧ localPoison benchPoison (ownKey benchPoison 40) 8 = true ∧ ends (load (bench []) 0 8) = 0
      ∧ trapAfter benchPoison [.ldk 5 5] = [some (true, zextField causePoison, 40)] := by decide

/-- For ExactValuesRoundToThemselves: the smallest FP16 subnormal and FP8's largest value; CorrectRounding: 9/8 in E2M1, with b at the
subnormal exponent; InvalidOperations: infinities, zeros, a negative value. -/
theorem meets_float :
    fp16.isNaN 1 = false ∧ fp16.round .rne false (fp16.decode 1) = { bits := 1, flags := 0 } ∧ e4m3.isNaN 0x7E = false
      ∧ (-3 : Int) ≤ 1 - (e2m1.bias : Int) - e2m1.fb ∧ (e2m1.roundMag .rne false 9 (-3)).1 ≤ e2m1.maxCode
      ∧ fp32.isInf 0x7F800000 = true ∧ fp32.sign 0x7F800000 ≠ fp32.sign 0xFF800000 ∧ fp32.magnitude 0x80000000 = 0 ∧ fp32.isNaN 0x3F800000 = false
      ∧ fp32.isInf 0x3F800000 = false ∧ fp32.magnitude 0x3F800000 ≠ 0 ∧ fp32.sign 0xBF800000 = true ∧ fp32.isNaN (fp32.add .rne 0x7F800000 0xFF800000).bits = true := by decide

/-- The small machine with a valid TVEC. -/
def benchTvec (regs : Table Word) : State := { bench regs with cpu := { (bench regs).cpu with tvec := 0x4001, tscr := 9 } }

/-- The small machine with a valid TVEC in a trap frame, one trap deep. -/
def benchTrapped (pc : Word) : State :=
  let s := takeTrap (benchTvec []) causeSvc 3
  { s with cpu := { s.cpu with trapPc := pc } }

/-- The debug module with BRKEN and TRAPEN off, and with BRKEN of this core on. -/
def benchDebug : State := { bench [] with dbg := { (bench []).dbg with en := true, brken := 1 } }

/-- For SystemInstructions, TrapEntry, NestedTraps and TrapReturn, clause by clause; SVC enters at TVEC in supervisor mode with
TSCR in x2 and the code in x5, and TRET goes on at TRAPPC. -/
theorem meets_traps :
    (bench []).cpu.switching = false ∧ debugOn (bench []) (bench []).dbg.brken = false ∧ debugOn benchDebug benchDebug.dbg.brken = true
      ∧ (benchTvec []).cpu.trap = none ∧ (benchTvec []).cpu.halted = false ∧ debugOn (benchTvec []) (benchTvec []).dbg.trapen = false ∧ (benchTvec []).cpu.tvec.getLsbD 0 = true
      ∧ (bench []).cpu.tvec.getLsbD 0 = false ∧ (benchTrapped 0x1004).cpu.trap.isSome = true ∧ (benchTrapped 0x1004).cpu.trap.map (·.onIdle) = some false
      ∧ (benchTrapped 0x1004).cpu.trap.map (·.operation) = some none ∧ check (benchTrapped 0x1004) .tret = .pass ∧ (benchTrapped 0x1004).cpu.frames ≠ []
      ∧ (benchTrapped 0x1005).cpu.trapPc.getLsbD 0 = true
      ∧ get (exec (.svc 5) (benchTvec [])) (fun t => [readPc t, readX t 2, readX t 3, readX t 4, readX t 5, (mode t).zeroExtend 64]) = some [0x4000, 9, 0x10, 0x1000, 5, 1]
      ∧ pcAfter (benchTrapped 0x1004) [.tret] = [some 0x1004] ∧ trapAfter (benchTrapped 0x1005) [.tret] = [some (true, zextField causeMisalign, 0x1005)] := by decide

/-- A trap on an idle core, for the last clause of TrapReturn. -/
def benchIdleTrap : State :=
  let s := benchTrapped 0
  { s with cpu := { s.cpu with frames := [], trap := s.cpu.trap.map fun f => { f with onIdle := true } } }

theorem meets_trap_idle :
    check benchIdleTrap .tret = .pass ∧ benchIdleTrap.cpu.trap.map (·.onIdle) = some true ∧ get (exec .tret benchIdleTrap) (fun t => (t.cpu.trap.isNone, t.cpu.frames.length)) = some (true, 0) := by
  decide

/-- For ControlRegisterAccess and ControlRegisterFields: values that a register takes and refuses, numbers, and modes. -/
theorem meets_control :
    csrRefused (bench []) 0x050 0x4001 = false ∧ csrRefused (bench []) 0x047 0xF = true ∧ csrAssigned 0x7F0 = false ∧ csrAssigned 0x050 = true ∧ isUser (userBench []) = true
      ∧ isUser (bench []) = false ∧ bit (bench []).cpu.partid 46 = false ∧ (bench []).cpu.frames ≠ [] ∧ State.reset.cpu.frames = []
      ∧ get (exec (.csrw 6 0x050) (bench [(6, 0xFFFFFFFFFFFFFFFF)])) (fun t => csrRead t 0x050) = some 0xFFFFFFFFFFF9
      ∧ x5After (bench []) [.csrr 5 0x002] = [some 20] := by decide

/-! ## Tasks -/

/-- The small machine in a partition of the cores at (0, 0) and (1, 0), in a gang of the two, with counters at 0x10000 and
an image of level 3 at 0x3000. -/
def benchTask (regs : Table Word) : State :=
  let s := bench regs
  let m := putBytes s.mem.lmem (ownKey s 0x3000) (toBytes 8 0x0003000000001008 ++ toBytes 8 1)
  let m := putBytes m (ownKey s (8 * 202)) (toBytes 8 0x400)
  { s with cpu := { s.cpu with prect := [(0, 0x8000000000000400)], dcbase := 0x10000, member := true }, mem := { s.mem with lmem := m } }

/-- R163, R164: a message of level 3 enters q3 with its class and its sender's core id; a spawn gives 0. -/
theorem test_send :
    get (exec (.send 6 7 2) (benchTask [(6, 1), (7, 0x3000)])) (fun t => t.cpu.q3)
        = some [.message 1 { hdr0 := 0x0203000000001008, hdr1 := 0, body := ⟨0, 0, 0, 0, 0, 0⟩ } false]
      ∧ get (exec (.spawn 5 6 7) (benchTask [(5, 8), (6, 1), (7, 0x3000)])) (fun t => (readX t 5, t.cpu.q3.length)) = some (0, 1)
      ∧ trapAfter (benchTask [(6, 2), (7, 0x3000)]) [.send 6 7 0, .send 7 6 0] = [some (true, zextField causeTarget, 2), some (true, zextField causeMsgaddr, 2)] := by decide

/-- A machine whose general slots are taken. -/
def benchFull : State :=
  let s := benchTask [(7, 0x3000)]
  { s with cpu := { s.cpu with queues := [(0, List.replicate 56 (.message { hdr0 := 0, hdr1 := 0, body := ⟨0, 0, 0, 0, 0, 0⟩ } false 0))] } }

/-- For MessageInstructions, clause by clause: an accepted image, a target of the partition and one outside it, a full
inbox, and a bad address. -/
theorem meets_messages :
    (benchTask []).own.turn = .core ∧ q3Used (benchTask []) < 8 ∧ ImageAccepted (benchTask []) 0x3000 0xFFC0000000000000 ∧ ImageAccepted (benchTask []) 0x3000 0xFFE0000000000000
      ∧ validTarget (benchTask []) 1 = true ∧ validTarget (benchTask []) 2 = false ∧ freeGeneral (benchTask []) = 56 ∧ freeGeneral benchFull = 0
      ∧ get (exec (.spawn 5 6 7) benchFull) (readX · 5) = some 1 ∧ 0xFFFC0 < (0xFFFC1 : Word).toNat := by
  unfold ImageAccepted
  decide

/-- R166 to R168: the end of a task, a claim of resource 2 with ceiling 21 and its release, and their errors. -/
def benchClaims (n : Nat) : State :=
  let s := benchTask [(6, 2), (7, 64), (8, 3), (9, 4)]
  { s with cpu := { s.cpu with ceil := [(2, 0x95), (4, 0x83)], claims := List.replicate n (20, 2) } }

theorem test_claims :
    get (exec (.claim 6) (benchClaims 0)) (fun t => (t.cpu.claims, thrWord t)) = some ([(20, 2)], 21)
      ∧ get (exec .unclaim (benchClaims 1)) (fun t => (t.cpu.claims, thrWord t)) = some ([], 20)
      ∧ get (exec .tend (benchClaims 0)) (fun t => (t.cpu.frames.length, t.cpu.retired)) = some (0, 1) := by decide

/-- For TaskEndAndClaims, clause by clause. -/
theorem meets_claims :
    (benchClaims 0).cpu.frames = [{ placedFrame with regs := [(6, 2), (7, 64), (8, 3), (9, 4)] }] ∧ (benchClaims 0).cpu.trap = none ∧ (benchClaims 0).cpu.switching = false
      ∧ (benchClaims 0).cpu.claims.length ≤ 0 ∧ 0 < (benchClaims 1).cpu.claims.length ∧ (benchTrapped 0x1004).cpu.trap.isSome = true ∧ check (benchTrapped 0x1004) .tend = .pass
      ∧ ((benchClaims 0).cpu.ceil.get 2).getLsbD 7 = true ∧ 20 ≤ ((benchClaims 0).cpu.ceil.get 2).toNat % 32 ∧ (benchClaims 0).cpu.claims.length < 16
      ∧ 64 ≤ (readX (benchClaims 0) 7).toNat ∧ ((benchClaims 0).cpu.ceil.get 3).getLsbD 7 = false ∧ ((benchClaims 0).cpu.ceil.get 4).toNat % 32 < 20 ∧ (benchClaims 16).cpu.claims.length = 16
      ∧ [Instr.claim 7, .claim 8, .claim 9].map (fun i => get (exec i (benchClaims 0)) (·.cpu.trapVal)) = [some (reasoned 6 64), some (reasoned 1 3), some (reasoned 2 4)] := by decide

/-- A machine with counter 5 active with two decrements to go, at level 3, and counter 6 with one. -/
def benchCounters (regs : Table Word) : State :=
  let s := benchTask regs
  let s := putCounter (putDescriptor s 5 0 0x8003000000001008) 5 2
  putCounter (putDescriptor s 6 0 0x8003000000001008) 6 1

/-- R151, R169 to R171: a decrement to 1, the last one, which releases the task to level 3, a DCSET, and a tag arm that TAGS
already meets. -/
theorem test_counters :
    get (exec (.dcdec 6) (benchCounters [(6, 5)])) (fun t => (counter t 5, t.cpu.queues.get 3)) = some (1, [])
      ∧ get (exec (.dcdec 6) (benchCounters [(6, 6)])) (fun t => (counter t 6, t.cpu.queues.get 3)) = some (0, [.release 6 0 0 0])
      ∧ get (exec (.dcset 6 7) (benchCounters [(6, 9), (7, 4)])) (fun t => (counter t 9, descriptor t 9 0)) = some (4, 0xC000000000000000)
      ∧ get (exec (.tagarmAny 6 7) { benchCounters [(6, 1), (7, 6)] with cpu := { (benchCounters [(6, 1), (7, 6)]).cpu with tags := 1 } }) (fun t => (t.cpu.arms.get 0, t.cpu.queues.get 3))
        = some (none, [.release 6 0 0 0]) := by decide

/-- For CountersAndArms, clause by clause: the descriptor of a counter not set, operands of DCDEC for the own and for another
core, counts of 2 and 1, a free slot and none. -/
def benchArms : State :=
  let s := benchCounters [(6, 1), (7, 6)]
  let a : Arm := { mask := 2, all := true, n := 5 }
  { s with cpu := { s.cpu with arms := (List.range 8).map fun i => (i, some a) } }

theorem meets_counters :
    pageOfCounters (benchCounters []) ≠ 0 ∧ (descriptor (benchCounters []) 9 0).toNat / 2 ^ 48 % 32 < 20 ∧ (descriptor (benchCounters []) 9 1).toNat % 8 = 0
      ∧ (0xFFFF000000000005 : Word).toNat / 2 ^ 30 % 2 ^ 18 = 0 ∧ (0x60000005 : Word).toNat / 2 ^ 29 % 2 = 1
      ∧ validTarget (benchCounters []) (BitVec.ofNat 64 ((0x60000005 : Word).toNat / 2 ^ 30 % 2 ^ 18)) = true
      ∧ (descriptor (benchCounters []) 5 0).getLsbD 63 = true ∧ counter (benchCounters []) 5 = 2 ∧ counter (benchCounters []) 6 = 1 ∧ hdrLevel (descriptor (benchCounters []) 6 0) < 20
      ∧ inStash (benchCounters []) (ownKey (benchCounters []) 0) 40 = false ∧ (benchCounters []).cpu.arms.get 0 = none ∧ (∀ j, j < 8 → benchArms.cpu.arms.get j ≠ none)
      ∧ (0x8000000000000005 : Word).toNat / 2 ^ 12 = 2 ^ 51 ∧ get (exec (.tagarmAll 6 7) benchArms) (·.cpu.trapVal) = some (reasoned 5 6) := by decide

/-- A machine whose barrier 3 expects two arrivals, at the core and at the root, where one has been counted; the flip of
barrier 4 and the BARI of barrier 5 are on their way. -/
def benchBarrier (regs : Table Word) : State :=
  let s := benchTask regs
  { s with
    cpu := { s.cpu with bar := [(3, { active := true, expect := 2, epoch := 1 }), (4, { active := true, expect := 2, epoch := 1, reg := true, pend := 2 }),
      (6, { active := true, expect := 2, epoch := 1, reg := true, pend := 1 })] }
    net := { s.net with roots := [(3, { active := true, expect := 2, arrived := 1, epoch := 1 })], flips := [{ n := 4, expect := 1, joined := true, dropped := true, epoch := 1 }, { n := 6, expect := 1, joined := true, dropped := false, epoch := 1 }], baris := [(5, 2, 1)] } }

/-- R154, R155, R174 to R177. -/
theorem test_barriers :
    get (exec (.bari 6 5) (benchBarrier [(6, 2)])) (fun t => (barrier t 5).expect) = some 2
      ∧ get (exec (.barv 6 3) (benchBarrier [(6, 2)])) (fun t => ((barrier t 3).arr, t.net.out)) = some (true, [.arrive 3 2 1])
      ∧ get (exec (.barj 3) (benchBarrier [])) (fun t => (barrier t 3).pend) = some 1
      ∧ get (exec (.bard 3) (benchBarrier [])) (fun t => (barrier t 3).pend) = some 0
      ∧ get (exec (.barq 5 3) (benchBarrier [])) (readX · 5) = some 0x4000000000020000
      ∧ get (exec (.barrierOperationAtRoot (.other (.arrive 3 2 1))) (benchBarrier [])) (fun t => ((rootOf t 3).phase, t.net.flips.length)) = some (1, 3)
      ∧ get (exec (.barrierFlip 4) (benchBarrier [])) (fun t => ((barrier t 4).phase, (barrier t 4).reg)) = some (1, false)
      ∧ get (exec (.barrierFlip 6) (benchBarrier [])) (fun t => ((barrier t 6).pend, (barrier t 6).reg)) = some (0, true)
      ∧ get (exec (.bariReachesCore 5 2) (benchBarrier [])) (fun t => (barrier t 5).expect) = some 2 := by decide

/-- For Barriers, clause by clause. -/
theorem meets_barriers :
    (benchBarrier []).cpu.member = true ∧ gangSize (benchBarrier []) = 2 ∧ (barrier (benchBarrier []) 3).active = true ∧ (barrier (benchBarrier []) 3).arr = false
      ∧ (barrier (benchBarrier []) 3).expect = 2 ∧ (0x10050002 : Word).toNat = 2 + ((0x10050002 : Word).toNat / 2 ^ 16 % 2 ^ 12) * 2 ^ 16 + 2 ^ 28 ∧ (bench []).cpu.member = false
      ∧ (rootOf (benchBarrier []) 3).active = true ∧ (rootOf (benchBarrier []) 3).arrived + 1 = (rootOf (benchBarrier []) 3).expect ∧ isHeld (benchBarrier []) = false
      ∧ bariPending (benchBarrier []) 4 = false ∧ (barrier (benchBarrier []) 4).epoch = 1 ∧ bariPending (benchBarrier []) 5 = false ∧ (barrier (benchBarrier []) 5).epoch ≤ 1
      ∧ (barrier (benchBarrier []) 4).pend = 2 ∧ (barrier (benchBarrier []) 6).pend = 1 ∧ bariPending (benchBarrier []) 6 = false := by decide

/-- An idle core with a message of level 3 for the handler at 0x1008, whose header declares 32 registers. -/
def benchInbox : State :=
  let s := State.reset
  let m : Message := { hdr0 := 0x0003000000001008, hdr1 := 1, body := ⟨7, 0, 0, 0, 0, 0⟩ }
  { s with
    cpu := { s.cpu with queues := [(3, [.message m false 0])], partid := 1, fhand := 0, synced := true }
    mem := { s.mem with lmem := putBytes s.mem.lmem (ownKey s 0x1000) (toBytes 8 0xA700000000000303) } }

theorem test_dispatch :
    get (exec .dispatch benchInbox) (fun t => (t.cpu.frames.map fun f => (f.level, f.pc, f.taskId), t.cpu.queues.get 3)) = some ([(3, 0x1008, 7)], []) := by decide

/-- A machine with an entry of q3 for itself, a message at its port, a monitor's decrement on the way, and a stalled instruction. -/
def benchArrivals : State :=
  let s := benchCounters []
  { s with
    cpu := { s.cpu with q3 := [.decrement 0 5 0], port := [{ m := { hdr0 := 0x0003000000001008, hdr1 := 0, body := ⟨0, 0, 0, 0, 0, 0⟩ }, own := false }] }
    mem := { s.mem with firings := [{ line := { dev := 0, line := 0 }, part := 0, n := 5, status := 0, core := s.cpu.coreId, word := 0 }] } }

/-- For DispatchAndArrivals, clause by clause. -/
theorem meets_dispatch :
    dispatchLevel benchInbox = some 3 ∧ (queueHead benchInbox 3).isSome = true
      ∧ (∃ u, fetchHeader benchInbox true 0x1000 = .ok u 0xA700000000000303) ∧ headerValid 0xA700000000000303 = true ∧ (0xA700000000000303 : Word).toNat / 2 ^ 8 % 32 ≤ 3
      ∧ dispatchLevel (bench []) = none ∧ benchArrivals.cpu.poweredOff = false ∧ isResident benchArrivals 0 = true ∧ freeGeneral benchArrivals ≠ 0 ∧ peatMode benchArrivals = 0
      ∧ benchArrivals.cpu.q3 = [.decrement benchArrivals.cpu.coreId 5 0] ∧ isHeld benchArrivals = false ∧ benchArrivals.cpu.switching = false ∧ benchArrivals.cpu.away = false
      ∧ benchArrivals.cpu.port.length = 1 ∧ 0 < freeGeneral benchArrivals
      ∧ (benchArrivals.mem.firings.head?.map (mayFire benchArrivals)) = some true ∧ queueHasSpace benchArrivals 0 = true ∧ csrRefused benchArrivals 0x047 0 = false
      ∧ csrRefused benchArrivals 0x047 0xF = true ∧ get (exec (.msg .own) benchArrivals) (counter · 5) = some 1 ∧ get (exec (.mdec { line := { dev := 0, line := 0 }, word := 0, n := 5, part := 0 } 0) benchArrivals) (counter · 5) = some 1
      ∧ benchArrivals.cpu.lateRing = none := by
  refine ⟨by decide, by decide, ⟨_, rfl⟩, ?_⟩
  decide

/-! ## The memory system -/

set_option maxRecDepth 4000 in
/-- For AtomicInstructions and AcquireAndRelease: a quiet home line, by each kind of access. -/
theorem meets_atomics :
    (benchMapped []).own.turn = .core ∧ Running (benchMapped []) ∧ headResident (benchMapped [])
      ∧ (∃ u p l, atomPiece (benchMapped []) 0x100003480 8 .both = .ok u p ∧ p.leaf = some l ∧ QuietHome u p)
      ∧ (∃ u p l, atomPiece (benchMapped []) 0x100003480 16 .both = .ok u p ∧ p.leaf = some l ∧ QuietHome u p)
      ∧ (∃ u p l, atomPiece (benchMapped []) 0x100003480 4 .write = .ok u p ∧ p.leaf = some l ∧ QuietHome u p)
      ∧ (∃ u p l, atomPiece (benchMapped []) 0x10000347F 1 .read = .ok u p ∧ p.leaf = some l ∧ QuietHome u p)
      ∧ (∃ u p l, atomPiece (benchMapped []) 0x100003480 8 .write = .ok u p ∧ p.leaf = some l ∧ QuietHome u p ∧ hasRoom u (pieceLine p) ∧ holdersOf u (pieceLine p).line = [])
      ∧ (∀ i ∈ [Instr.amoadd 5 6 7 0 1, .cas2 10 6 12 0, .redadd 6 7 0 0, .ldacq 5 6 0, .strel 6 7 0], check (benchMapped [(6, 0x100003480)]) i = .pass)
      ∧ 2 ^ 55 < (0x7FFFFFFFFFFFFD : Word).toNat + 4 ∧ (0xFFFFFFFF : Word).toNat < 2 ^ 32 ∧ (0x7FFFFFFFFFFFFB : Word).toNat % 4 ≠ 0 ∧ (0x7FFFFFFFFFFFFB : Word).toNat + 4 ≤ 2 ^ 55 := by
  unfold headResident QuietHome
  refine ⟨rfl, .inr (by decide), by decide, ?_, ?_, ?_, ?_, ⟨_, _, _, rfl, rfl, by decide, .inr ⟨0, 1, by decide⟩, by decide⟩, by decide⟩ <;>
    exact ⟨_, _, _, rfl, rfl, by decide⟩

/-- A machine with SC1 the whole partition, SC2 a malformed rectangle, one stash line with a written word, one
acknowledgement and one atomic in flight. -/
def benchFence : State :=
  let s := benchMapped [(6, 0x100003480), (7, 5), (8, 0x80000000000000), (9, 0xFFFFFFFFFFFFFFFF), (10, 1)]
  let ln : LineId := { dev := 2, line := 0x14069 }
  { s with
    cpu := { s.cpu with
      dcbase := 0x10000, stashcfg := 0x11, sc := [(81, 0x100000000), (82, 0x1F)],
      acks := [{ line := ln, src := .stash 3, cls := 0, holds := false, fences := [] }],
      inFlight := [{ id := 0, level := none, rd := 0, size := 8, addr := 0, returning := true, cls := 0, fences := [], dev := 0, pa := 0 }], nextId := 7 }
    mem := { s.mem with stash := [{ line := ln, set := 0, way := 0, data := [(1, 9)], poison := 0, written := 1, key := 0, marks := [] }] } }

set_option maxRecDepth 4000 in
/-- For FencesAndMonitors, clause by clause; a full fence puts the written word home and holds later accesses. -/
theorem meets_fences :
    (readSc benchFence 1).getLsbD 32 = true ∧ (readSc benchFence 2).getLsbD 32 = false ∧ rectWellFormed (readSc benchFence 2) = false ∧ rectWellFormed (readSc benchFence 0) = true
      ∧ readX benchFence 5 = 0 ∧ 2 ^ 55 < (readX benchFence 8).toNat + (readX benchFence 10).toNat ∧ readX benchFence 9 = -1 ∧ hasStash benchFence = true
      ∧ pageOfCounters benchFence ≠ 0 ∧ (readX benchFence 7).toNat < 4096 ∧ benchFence.mem.stash.length = 1 ∧ populated 0xA03480 = true
      ∧ (benchFence.mem.stash.map fun l => isHome benchFence l.line) = [true] ∧ (∀ i ∈ [Instr.fence 1, .fenceAcq 1, .fenceRel 0, .fencex 1 0 1, .sflush 6 7, .sinv 6 5, .spf 8 10, .monarm 5 6 7, .mondis 6], check benchFence i = .pass)
      ∧ get (exec (.fence 1) benchFence) (fun t => (t.cpu.acks.map (·.fences), t.cpu.inFlight.map (·.fences))) = some ([[{ cls := 0, first := 7, scope := 0x100000000, deep := true }]],
        [[{ cls := 5, first := 7, scope := 0x100000000, deep := true }, { cls := 0, first := 7, scope := 0x100000000, deep := true }]])
      ∧ get (exec (.sflush 5 9) benchFence) (fun t => (t.mem.stash.map (·.written), homeByte t 0 0xA03481)) = some ([0], 9)
      ∧ get (exec (.sinv 5 9) benchFence) (fun t => (t.mem.stash.length, homeByte t 0 0xA03481)) = some (0, 9) := by decide

/-- A line of the device, one of another device, and a machine that awaits the second, has a byte of the first in the store buffer, an acknowledgement for it and
an atomic outstanding. -/
def line0 : LineId := { dev := 2, line := 0x14069 }

def lineFar : LineId := { dev := 1, line := 0x14069 }

def lineAsked : LineRequest := { line := lineFar, want := .line .core, key := 3, release := false }

def benchEvents : State :=
  let s := benchMapped []
  { s with
    cpu := { s.cpu with
      acks := [{ line := line0, src := .stash 3, cls := 0, holds := false, fences := [] }],
      inFlight := [{ id := 4, level := some 20, rd := 5, size := 8, addr := 0, returning := true, cls := 0, fences := [], dev := 0, pa := 0 }] }
    mem := { s.mem with
      buffer := [{ line := line0, bytes := [(1, 9)], direct := true, key := 0 }], requested := [lineAsked], removals := [(line0, 3)],
      monitors := [{ core := 0x800, part := 5, line := 0x14069, word := 3, n := 7 }], invs := [line0] } }

/-- The same with words asked for, and with another core's word held and a request for it. -/
def benchHeld : State :=
  let s := benchMapped []
  { s with
    mem := { s.mem with
      requested := [{ line := line0, want := .grant, key := 0, release := false }],
      dir := [(0x14069, { writers := [{ core := 0x801, words := 1, release := 0 }], sharers := [], overflow := false })] } }

/-- Another core's fetch-and-add of 7 to the word at 0xA03480. -/
def adds (v : Nat) : AtomRequest :=
  { op := 0, size := 2, order := 0, posted := false, pa := 0xA03480, part := 5, key := 0, core := 0x801, exp := 0, new := BitVec.ofNat 128 v, logged := false }

/-- R205 to R269, single events: the buffered byte is home, a holder is recorded, the line arrives, words are granted to
another core and to this one, a written word is merged, the copies go, the acknowledgement goes, atomics of others are
performed, one by one and combined, or kept, a reply reaches x5, a registration goes. -/
theorem test_memory_events :
    get (exec .storeBufferDrain benchEvents) (fun t => (t.mem.buffer.length, homeByte t 0 0xA03481)) = some (0, 9)
      ∧ get (exec (.fill line0 { holder := .peer 4 }) benchEvents) (fun t => (dirOf t line0.line).sharers) = some [.peer 4]
      ∧ get (exec (.data lineFar { bytes := [1], poison := 2 }) benchEvents) (fun t => (t.mem.requested.length, t.mem.peers.map fun p => (p.key, p.poison, p.data.get 0)))
        = some (0, [(3, 2, 1)])
      ∧ get (exec (.notice line0 { core := 0x802, words := 2, release := false }) benchEvents) (fun t => (dirOf t line0.line).writers.map (·.core)) = some [0x802]
      ∧ get (exec (.grant line0 (.granted 6)) benchHeld) (fun t => (grantOf t line0).words) = some 6
      ∧ get (exec (.wb line0 { kind := .publication, core := 0x801, sharer := .stash 0x801, words := 1, data := [3], logged := false }) benchHeld)
        (fun t => (homeDword t 0 0xA03480, (dirOf t line0.line).writers.length)) = some (3, 0) := by decide

theorem test_memory_events_2 :
    get (exec (.inv { line := line0 }) benchEvents) (fun t => (t.mem.invs.length, t.mem.peers.length)) = some (0, 0)
      ∧ get (exec (.ack line0 (.stash 3)) benchEvents) (fun t => t.cpu.acks.length) = some 0
      ∧ get (exec (.atom (adds 7)) (benchMapped [])) (fun t => ofBytes (homeBytes t 0 0xA03480 4)) = some 0x8000000C
      ∧ get (exec (.catom [adds 7, adds 8]) (benchMapped [])) (fun t => ofBytes (homeBytes t 0 0xA03480 4)) = some 0x80000014
      ∧ get (exec (.atom { adds 7 with core := 0x802 }) benchHeld) (fun t => (t.mem.kept.length, ofBytes (homeBytes t 0 0xA03480 4))) = some (1, 0x80000005)
      ∧ get (exec (.atomr { id := 4, old := 6, poisoned := false }) benchEvents) (fun t => (readX t 5, t.cpu.inFlight.length)) = some (6, 0)
      ∧ get (exec .monitorRemoval benchEvents) (fun t => (t.mem.removals.length, t.mem.monitors.length)) = some (0, 0) := by decide

/-- For MemoryEvents, clause by clause. -/
theorem meets_memory_events :
    (benchMapped []).mem.buffer = [] ∧ isHome benchEvents line0 = true ∧ populated (line0.line.toNat * 128) = true ∧ isWatched benchEvents line0.line = false
      ∧ (0x802 : BitVec 18) ≠ benchEvents.cpu.coreId ∧ refusedBy benchEvents line0.line { core := 0x802, words := 2, release := false } = none
      ∧ slotsFull benchEvents line0.line { core := 0x802, words := 2, release := false } = false ∧ benchHeld.mem.requested.map (·.want) = [.grant]
      ∧ (grantOf benchEvents lineFar).sent = [] ∧ benchEvents.mem.requested = [lineAsked] ∧ ackWaits benchEvents line0 (.stash 3) = false ∧ benchEvents.mem.owed = []
      ∧ benchEvents.mem.firings = [] ∧ (adds 7).pa.toNat % atomSize (adds 7) = 0 ∧ heldWords benchEvents line0.line = 0
      ∧ benchEvents.mem.invs.contains line0 = true ∧ keepsOwn benchEvents (.stash 3) = false ∧ benchEvents.eng.releases = [] ∧ benchEvents.cfe.hostAcks = []
      ∧ mustKeep benchEvents (adds 7) = false ∧ keptAtomic benchEvents (adds 7) = none ∧ homePoison benchEvents 0xA03480 4 = false ∧ (adds 7).pa.toNat / 128 = line0.line.toNat
      ∧ stashLine benchEvents (homeLine benchEvents line0.line) = none ∧ (grantOf benchEvents (homeLine benchEvents line0.line)).words = 0 ∧ (atomNew 0 4 5 7 0).isSome = true
      ∧ mustKeep benchHeld { adds 7 with core := 0x802 } = true ∧ combinable (adds 7) = true ∧ some 20 = frameTag benchEvents := by decide

/-- For MemoryEvents: room in the home slice, and none where every way of the set is pinned; another stash of the die. -/
theorem meets_memory_rooms : headResident benchEvents ∧ hasRoom benchEvents line0 ∧ isBehindOwn benchEvents line0 (.peer 4) = false ∧ FillRequest.holder { holder := .peer 4 } ≠ ownStash benchEvents :=
  ⟨by unfold headResident; decide, .inr ⟨0, 1, by decide⟩, by decide⟩

/-! ## Vectors and generators -/

/-- A vector register of lanes of `w` bits, lane 0 first. -/
def lanes (w : Nat) (xs : List Nat) : BitVec 512 := BitVec.ofNat 512 (xs.foldr (fun x r => x + 2 ^ w * r) 0)

/-- The small machine with v1, v2 and k1 of its level. -/
def benchVec (regs : Table Word) (a b : BitVec 512) (k : Word) : State :=
  let s := bench regs
  { s with cpu := { s.cpu with v := [(321, a), (322, b)], k := [(161, k)] } }

/-- Lanes 0 to 3 of v3 after each instruction. -/
def v3After (s : State) (w : Nat) (is : List Instr) : List (Option (List Nat)) :=
  is.map fun i => get (exec i s) fun t => (List.range 4).map fun j => lane (readV t 3) w j

/-- R185 over I8 lanes 0x7F, 0x80, 5, 3 and 1, 0xFF, 3, 5, worked by hand; the mask keeps lane 3 as it is, 0. -/
theorem test_lanes :
    v3After (benchVec [] (lanes 8 [0x7F, 0x80, 5, 3]) (lanes 8 [1, 0xFF, 3, 5]) 7) 8
        [.vadd 3 1 2 1 0, .vsub 3 1 2 1 0, .vmul 3 1 2 1 0, .vmin 3 1 2 1 0, .vmax 3 1 2 1 0, .vabs 3 1 1 0, .vand 3 1 2 1 0, .vor 3 1 2 1 0, .vxor 3 1 2 1 0, .vshl 3 1 2 1 0,
          .vshr 3 1 2 1 0, .vsra 3 1 2 1 0, .vadds 3 1 2 1 0, .vsubs 3 1 2 1 0, .vsel 3 1 2 1 0, .vidx 3 1 0]
      = [some [0x80, 0x7F, 8, 0], some [0x7E, 0x81, 2, 0], some [0x7F, 0x80, 15, 0], some [1, 0x80, 3, 0], some [0x7F, 0xFF, 5, 0], some [0x7F, 0x80, 5, 0], some [1, 0x80, 1, 0],
        some [0x7F, 0xFF, 7, 0], some [0x7E, 0x7F, 6, 0], some [0xFE, 0, 40, 0], some [0x3F, 1, 0, 0], some [0x3F, 0xFF, 0, 0], some [0x7F, 0x80, 8, 0], some [0x7E, 0x81, 2, 0],
        some [0x7F, 0x80, 5, 5], some [0, 1, 2, 0]] := by decide +kernel

/-- The routine of a masked tail: the mask of six lanes, and the sum of its six values over stale NaNs, 11.375. -/
theorem test_tail :
    get (exec (.vcmplt 1 1 2 0 2) (benchVec [] (lanes 32 (List.range 16)) (lanes 32 (List.replicate 16 6)) 0)) (readK · 1) = some 0x3F
      ∧ v3After (benchVec [] (lanes 32 ([0x3FC00000, 0xC0100000, 0x40800000, 0x3E000000, 0x80000000, 0x41000000] ++ List.replicate 10 0x7FC00000)) 0 0x3F) 32 [.vredadd 3 1 1 6]
        = [some [0x41360000, 0, 0, 0]]
      ∧ x5After (benchVec [] (lanes 32 [0x41360000]) 0 0) [.vmovx 5 1 0 6] = [some 0x41360000]
      ∧ v3After (bench [(4, 6)]) 32 [.vbcast 3 4 0 2] = [some [6, 6, 6, 6]] := by decide +kernel

/-- R186, R188 to R190, R193: other compares, masks, a permutation, minima and maxima, a conversion of 1.5 and −2.25 to BF16, and
floating-point lanes. -/
theorem test_lanes_2 :
    ([.vcmpeq 2 1 2 0 0, .vcmple 2 1 2 0 0, .vcmpltu 2 1 2 0 0] : List Instr).map (fun i => get (exec i (benchVec [] (lanes 8 [5, 0x80, 2]) (lanes 8 [5, 1, 1]) 0)) fun t => (readK t 2).toNat % 8)
        = [some 1, some 3, some 0]
      ∧ ([.vmand 2 1 1, .vmor 2 1 3, .vmxor 2 1 1] : List Instr).map (fun i => get (exec i (benchVec [] 0 0 6)) (readK · 2)) = [some 6, some 6, some 0]
      ∧ x5After (benchVec [] 0 0 0xFF06) [.vmpopc 5 1] = [some 10]
      ∧ v3After (benchVec [] (lanes 8 [9, 8, 7, 6]) (lanes 8 [3, 65, 2, 0]) 0) 8 [.vperm 3 1 2 0 0] = [some [6, 8, 7, 9]]
      ∧ v3After (benchVec [] (lanes 8 [9, 0xFE, 7]) 0 7) 8 [.vredmin 3 1 1 0, .vredmax 3 1 1 0, .vredadd 3 1 1 0] = [some [0xFE, 0, 0, 0], some [9, 0, 0, 0], some [14, 0, 0, 0]]
      ∧ v3After (benchVec [] (lanes 32 [0x3FC00000, 0xC0100000]) 0 0) 16 [.vcvt 3 1 6 0 4] = [some [0x3FC0, 0xC010, 0, 0]]
      ∧ v3After (benchVec [] (lanes 32 [0x40C00000]) (lanes 32 (List.replicate 16 0x40000000)) 1) 32 [.vdiv 3 1 2 1 6, .vfma 3 1 2 1 6] = [some [0x40400000, 0, 0, 0], some [0x41400000, 0, 0, 0]] := by
  decide +kernel

/-- R195 to R197: a load, strided and indexed loads, and the three stores, of bytes at 0x3000. -/
theorem test_vector_memory :
    v3After { benchMem [(4, 0x3000), (6, 2)] 0x3000 [1, 2, 3, 4, 5, 6, 7] with cpu := (benchVec [(4, 0x3000), (6, 2)] 0 (lanes 8 [3, 2]) 3).cpu } 8
        [.vld 3 4 1 0, .vlds 3 4 6 1 0, .vgath 3 4 2 1 0] = [some [1, 2, 0, 0], some [1, 3, 0, 0], some [4, 3, 0, 0]]
      ∧ ([.vst 1 4 1 0, .vsts 1 4 6 1 0, .vscat 1 4 2 1 0] : List Instr).map
          (fun i => get (exec i (benchVec [(4, 0x3000), (6, 2)] (lanes 8 [8, 9]) (lanes 8 [3, 2]) 3)) fun t => (getLocals t (ownKey t 0x3000) 4).map BitVec.toNat)
        = [some [8, 9, 0, 0], some [8, 0, 9, 0], some [0, 0, 9, 8]] := by decide +kernel

/-- The small machine with g1 of its level. -/
def benchGen (regs : Table Word) (g : BitVec 256) : State := { bench regs with cpu := { (bench regs).cpu with g := [(161, g)] } }

/-- The worked value of fenmix: RSIGN and NNORM at (0, 0) with SUB = 1; VGEN gives −1 in lane 0. -/
theorem test_generators :
    x5After (benchGen [] 0x16E000014) [.gdraw 5 6 1] = [some 0xC6CF27C8FFFFFFFF] ∧ x5After (benchGen [] 0x16E000015) [.gdraw 5 6 1] = [some 0xC6CF27C800000086]
      ∧ v3After (benchGen [] 0x16E000014) 32 [.vgen 3 1 4 0 6] = [get (exec (.vgen 3 1 4 0 6) (benchGen [] 0x16E000014)) fun t => 0xBF800000 :: ((List.range 4).tail.map fun j => lane (readV t 3) 32 j)]
      ∧ get (exec (.gset 6 1) (benchMem [(6, 0x3000)] 0x3000 [7])) (readG · 1) = some 7
      ∧ get (exec (.gget 6 1) (benchGen [(6, 0x3000)] 7)) (fun t => getLocals t (ownKey t 0x3000) 1) = some [7] := by decide +kernel

/-- For VectorArithmetic, VectorMasksAndMoves, VectorConversionsAndReductions, VectorMemory and GeneratorsAndTags, clause by clause. -/
theorem meets_vectors :
    laneType 6 = .float fp32 ∧ (3 : BitVec 3).toNat < 4 ∧ conversionOf 0 = none ∧ (conversionOf 0xC500000000000000).isSome = true
      ∧ (conversionOf 0xC500000000000000).map (fun c => (conversionReserved (bench []) 0xC500000000000000 c 6 4, decide (c.rm ≠ 5))) = some (false, true)
      ∧ (conversionOf 0xC5FFFFFFFFFFFFFF).map (fun c => conversionReserved (bench []) 0xC5FFFFFFFFFFFFFF c 6 4) = some true
      ∧ genValid 0x16E000014 = true ∧ genTrap (bench []) 0x16E000014 [(0, 0)] = none ∧ genKind 0x16E000014 = 0x14 ∧ genValid 0 = false
      ∧ isFenced (bench []) 0 = false ∧ (bench []).mem.shadows = [] ∧ (bench []).mem.buffer = [] ∧ (0x3000 : Word).toNat % 32 = 0 ∧ (0x3001 : Word).toNat % 32 ≠ 0 := by decide

/-! ## Engines -/

/-- Completion fields of mode 001 with tag 5. -/
def fin5 : Completion := { mode := 1, tag := 5, ctr := 0, image := none, level := 20, sup := true, part := 0, word := 0, id := 0 }

/-- Four bytes in a row, and a copy of them from 0x3000 to 0x4000. -/
def run4 : Shape := { ndim := 1, packed := false, ebits := 8, counts := [4], strides := [1] }

def copy4 : CopyCmd := { src := run4, dst := run4, srcBase := 0x3000, dstBase := 0x4000, fin := fin5, result := none }

/-- An ACZ of tile 1. -/
def acz1 : MatrixCmd :=
  { kind := .acz, tile := 1, src := 0, pc := 0x1000, e0 := 0, e1 := 0, e2 := 0, genA := none, genB := none, scales := [], addr := 0, ctl := 0, rm := 0, fin := fin5 }

/-- A machine with e0 to e3 for a BF16 product of 16 by 16 by 16 at 0x4000 and 0x5000, shapes in slots 1 and 2, and TAGS. -/
def benchEngine (regs : Table Word) : State :=
  let s := benchMem regs 0x3000 (toBytes 8 0x5C00020001000020 ++ toBytes 8 0x0000000800000010 ++ toBytes 8 0 ++ toBytes 8 0x0000000400000000 ++ toBytes 8 0x80)
  { s with
    cpu := { s.cpu with tags := 6, e := [(80, 0x4000), (81, 0x5000), (82, 0x0020002000210000), (83, 0x1400000000000081)] }
    eng := { s.eng with shapes := [(1, some run4), (2, some run4)] } }

/-- The same with the completion fields of a product alone in e3. -/
def benchMma : State := writeE (benchEngine []) 3 0x1400000000000000

/-- R321 to R324: the source shape of the example of R324 holds 512 bytes; the tags; a COPY of slots 1 and 2 enters q1. -/
theorem test_engine_issue :
    x5After (benchEngine [(6, 0x3000), (7, 5)]) [.cshp 5 6, .tagtst 5 7, .tagff 5 7] = [some 512, some 4, some 2]
      ∧ get (exec (.tagclr 7) (benchEngine [(7, 5)])) (fun t => t.cpu.tags) = some 2
      ∧ get (exec (.copy 6 7 1) (benchEngine [(6, 0x3000), (7, 0x4000)])) (fun t => t.eng.q1.map fun c => (c.srcBase, c.dstBase, c.fin.tag)) = some [(0x3000, 0x4000, 5)]
      ∧ get (exec (.mma 1 1) benchMma) (fun t => t.eng.q0.map fun c => (c.tile, c.e0)) = some [(1, 0x4000)]
      ∧ get (exec (.acz 2) (benchEngine [])) (fun t => t.eng.q0.map (·.tile)) = some [2] := by decide +kernel

/-- A copy in channel 2, a command in each queue. -/
def benchRunning : State :=
  let s := benchMem [] 0x3000 [1, 2, 3, 4]
  { s with eng := { s.eng with channels := [(2, some copy4)], q1 := [copy4], q0 := [acz1] } }

/-- An ACZ that runs, over a tile that holds a 9. -/
def benchTile : State :=
  let s := writeTile (bench []) 20 1 [9]
  { s with eng := { s.eng with running := some { cmd := acz1, chunk := 0, status := 0, fault := none, trapPending := false, finished := false } } }

theorem test_engine_events :
    get (exec (.copyComplete 2) benchRunning) (fun t => (t.cpu.tags, getLocals t (ownKey t 0x4000) 5)) = some (0x20, [1, 2, 3, 4, 0])
      ∧ get (exec .matrixCommandStart { benchRunning with eng := { benchRunning.eng with q0 := [{ acz1 with kind := .mma }] } }) (fun t => (t.eng.q0.length, t.eng.running.map (·.cmd.kind))) = some (0, some .mma)
      ∧ readTile benchTile 20 1 0 0 = 9 ∧ get (exec .matrixComplete benchTile) (fun t => (t.eng.running.isNone, readTile t 20 1 0 0, t.cpu.tags)) = some (true, 0, 0x20) := by decide +kernel

/-- For EngineIssue, clause by clause: operands, and a full queue. -/
def benchQueueFull : State := { benchEngine [] with eng := { (benchEngine []).eng with q0 := List.replicate 16 acz1 } }

theorem meets_engine_issue :
    (benchEngine []).eng.q1.length < 16 ∧ (readE (benchEngine []) 3).toNat / 2 ^ 12 % 2 ^ 11 = 0 ∧ (readE (benchEngine []) 3).toNat % 64 = 1 ∧ (readE (benchEngine []) 3).toNat / 64 % 64 = 2
      ∧ ends (issueFin (benchEngine []) (.copy 6 7 1) 1 (readE (benchEngine []) 3)) = 0 ∧ copyReason (benchEngine []) 1 2 0x3000 0x4000 = none ∧ (benchEngine []).eng.q0.length < 16
      ∧ operandReserved (benchEngine []) (readE (benchEngine []) 0) 1 32 = false ∧ (readE (benchEngine []) 2).toNat % 2 ^ 16 = 0 ∧ 16 % min (formatChunk 1) (formatChunk 1) = 0
      ∧ seedPoison (benchEngine []) (readE (benchEngine []) 0) = none ∧ isScaled 1 = false ∧ (readE (benchEngine []) 0).getLsbD 63 = false
      ∧ accvtReserved (benchEngine []) 0x0010000000020000 = false ∧ accvtReserved (benchEngine []) 0xFFFFFFFFFFFFFFFF = true ∧ 16 ≤ benchQueueFull.eng.q0.length
      ∧ benchQueueFull.cpu.stepping = false ∧ (readE benchMma 3).toNat % 2 ^ 23 = 0 := by decide +kernel

/-- A record of four FP32 scale words of 1.0, for the scaled formats. -/
theorem meets_scaled : ∃ c, c < 32 ∧ isScaled c = true ∧ scalesReserved c c [0, 0, 0, 0] = false := by decide

/-- A product that has started, whose operands are the zeros of local memory. -/
def mma1 : MatrixCmd := { acz1 with kind := .mma, e0 := 0x4000, e1 := 0x5000, e2 := 0x0020002000210000 }

def benchProduct : State :=
  let s := bench []
  { s with eng := { s.eng with running := some { cmd := mma1, chunk := 0, status := 0, fault := none, trapPending := false, finished := false } } }

/-- A product of two chunks, one whose first operand lies in the stash region of `benchStash`, and a finished one that waits
to complete. -/
def mma3 : MatrixCmd := { mma1 with e2 := 0x0020002004210000 }

def mma4 : MatrixCmd := { mma1 with e0 := BitVec.ofNat 64 (stashSpan benchStash).1 }

def benchDone : State :=
  let s := bench []
  { s with eng := { s.eng with waiting := [{ cmd := mma1, chunk := 1, status := 0, fault := none, trapPending := false, finished := true }] } }

/-- R293: a product past its last chunk completes though the engine runs nothing else. -/
theorem test_finished_completes : (enabled benchDone).contains (.move .matrixComplete) = true ∧ (enabled (bench [])).contains (.move .matrixComplete) = false := by
  decide +kernel

/-- The same, with its first operand where nothing is mapped. -/
def mma2 : MatrixCmd := { mma1 with e0 := 0x100000000 }

/-- How a fetch of operands ends: 0 fetched with nothing remote and no poison, 1 a fault, 2 otherwise. -/
def fetches (s : State) (c : MatrixCmd) : Nat := match fetchProduct s s.own.draws c 0 16 with
  | .ok g => if g.lines.isEmpty && g.used.isEmpty && !g.poison then 0 else 2
  | .fault _ => 1

/-- For EngineEvents, clause by clause. -/
def benchFault : State :=
  let s := benchTvec []
  let m : MatrixOp := { cmd := mma2, chunk := 0, status := 0, fault := some { kind := 0, opnd := 0, addr := 0x100000000, xfstat := none }, trapPending := true, finished := false }
  { s with
    cpu := { s.cpu with ldhsSince := some (0, 0x0300000000000001), time := 2400 }
    eng := { s.eng with waiting := [m], q2 := [{ slot := 1, base := none, fin := fin5, desc := some (List.replicate 16 0) }] } }

theorem meets_engine_events :
    accepts benchRunning 1 fin5 = true ∧ accepts benchRunning 2 fin5 = true ∧ accepts benchFault 3 fin5 = true ∧ enginesHeld benchRunning = false ∧ enginesFrozen benchRunning = false ∧ (nextCopy benchRunning.eng.q1).isSome = true ∧ (freeChannel benchRunning).isSome = true
      ∧ benchRunning.eng.channels.get 2 = some copy4 ∧ inStash benchRunning (ownKey benchRunning 0x3000) 4 = false ∧ inStash benchRunning (ownKey benchRunning 0x4000) 4 = false
       ∧ eventOn benchRunning 0 = false
      ∧ (∀ j, j < 8 → benchRunning.cpu.arms.get j = none) ∧ benchRunning.eng.running = none ∧ benchRunning.eng.waiting = [] ∧ benchRunning.eng.q0 = [acz1]
      ∧ mma1.isProduct = true ∧ partOf (bench []) = 0 ∧ (bench []).eng.exchanges = [] ∧ benchTile.eng.waiting = [] ∧ mma1.chunks = 1 ∧ mma3.chunks = 2 ∧ bestLevel benchProduct = none
      ∧ benchDone.eng.running = none ∧ (benchDone.eng.waiting.find? fun x => x.finished && x.fault.isNone).isSome = true ∧ productInStash benchStash mma4 = true
      ∧ get (exec .matrixComplete benchDone) (fun t => (t.eng.waiting.length, t.cpu.tags)) = some (0, 0x20) ∧ mma1.chunkSize = 16 ∧ fetches benchProduct mma1 = 0 ∧ fetches benchProduct mma2 = 1 ∧ (pendingMfetch benchFault).isSome = true
      ∧ benchFault.cpu.trap = none ∧ benchFault.cpu.parked = none ∧ benchFault.cpu.tvec.getLsbD 0 = true ∧ benchFault.eng.exchanges = [] ∧ (gridOf benchFault 1).defined = false
      ∧ benchFault.eng.q2.length = 1 ∧ benchFault.cpu.ldhsSince = some (0, 0x0300000000000001) ∧ (0 : Word).toNat + 2400 ≤ benchFault.cpu.time.toNat
      ∧ get (exec .mfetch benchFault) (fun t => (t.cpu.trapCause, t.cpu.trapVal)) = some (0x1C, 0x100000000)
      ∧ get (exec .ldhsStallLimit benchFault) (fun t => (t.cpu.trapCause, t.cpu.trapVal)) = some (0x1B, 0x0300000000000001)
      ∧ get (exec (.slab { slot := 2, face := 0, piece := 0, base := 0, part := 0, bytes := [] }) (bench [])) (fun t => ((gridOf t 2).faces.get 0).held.length) = some 1
      ∧ get (exec .leveeTake benchFault) (fun t => ((gridOf t 1).defined, t.eng.q2.length)) = some (true, 0) := by decide +kernel

/-- For EngineCompletion: a completion of each mode, with a status and without. -/
theorem meets_completion :
    eventOn (bench []) 1 = false ∧ (bench []).cpu.engstat.getLsbD 0 = false ∧ (completeOp (bench []) fin5 1 0 0x10 4).cpu.engstat.getLsbD 0 = true
      ∧ (completeOp (bench []) fin5 1 0 0x10 4).cpu.engstat = 0x0010150000000001 ∧ (completeOp (bench []) { fin5 with mode := 0 } 1 0 0 4).cpu.tags = 0 := by decide

/-! ## Grids -/

/-- The grid of the Jacobi example at the core (15, 9), rank 0, its descriptor at 0x3000; q2 empty. -/
def benchGridBare (regs : Table Word) : State :=
  let s := bench regs
  let s := { s with cpu := { s.cpu with coreId := 0x9F } }
  let ws : List Word := [0x6DC1209249002000, 0x2100, 0x0000000100020002, 0x5412F, 0x0101, 0x0000040000800004, 0, 0, 0, 0, 0, 0, 0, 0, 0, 0]
  { s with mem := { s.mem with lmem := putBytes s.mem.lmem (ownKey s 0x3000) (ws.flatMap fun w => toBytes 8 w.toNat) } }

/-- The same with slot 1 defined, its faces X+ and Y+ landed at base 0, and a 16.0 in the cell (1, 1) of buffer 0. -/
def benchGrid (regs : Table Word) : State :=
  let s := benchGridBare regs
  let f : Face := { newest := some 0, older := none, held := [] }
  let desc := (List.range 16).map (dword (getLocals s (ownKey s 0x3000) 128))
  let g : Grid := { defined := true, born := 0, desc := desc, s := 0, faces := [(1, f), (3, f)], last := 0, lastDone := true, arrived := [] }
  { s with
    eng := { s.eng with grids := [(1, g)] }
    mem := { s.mem with lmem := putBytes s.mem.lmem (ownKey s 0x2054) [0, 0, 0x80, 0x41] } }

/-- R313, R335 to R339: GRDEF queues a command, LDHS reads the 16.0 of cell (1, 1), GRQ and GRBC read and change the slot, and a
step is counted. -/
theorem test_grids :
    get (exec (.grdef 6 1) (benchGridBare [(6, 0x3000)])) (fun t => t.eng.q2.map (·.slot)) = some [1]
      ∧ get (exec (.ldhs 5 6 1) (benchGrid [(6, 0x10001)])) (readX · 5) = some 0x41800000
      ∧ get (exec (.grbc 6 1) (benchGrid [(6, 16)])) (fun t => (gridOf t 1).desc.head?) = some (some 0x6DC120924A002000)
      ∧ get (exec (.grstep 1 1) (benchGrid [])) (fun t => ((gridOf t 1).s, t.eng.q2.length)) = some (1, 1)
      ∧ get (exec (.grq 5 6 1) (benchGrid [(6, 1)])) (readX · 5) = some 3
      ∧ trapAfter (bench []) [.ldhs 5 6 1, .grq 5 6 1] = [some (true, 0x1A, reasoned 1 1), some (false, 0, 0)] := by decide +kernel

/-- For GridInstructions, clause by clause: the descriptor, the step, a rule, an own cell, a covered ghost cell and one that is
too old for its slab, and an undefined slot. -/
theorem meets_grids :
    (benchGridBare []).eng.q2.length < 8 ∧ inStash (benchGridBare []) (ownKey (benchGridBare []) 0x3000) 128 = false ∧ localPoison (benchGridBare []) (ownKey (benchGridBare []) 0x3000) 128 = false
      ∧ (let w := (List.range 16).map (dword (getLocals (benchGridBare []) (ownKey (benchGridBare []) 0x3000) 128))
         geoReserved w = false ∧ geoReason (benchGridBare []) w = none)
      ∧ (gridOf (benchGrid []) 1).defined = true ∧ ends (issueFin (benchGrid []) (.grstep 1 1) 1 0) = 0
      ∧ periodicBad (geoOf (setAt (gridOf (benchGrid []) 1).desc 0 (withField ((gridOf (benchGrid []) 1).desc.getD 0 0) 24 3 2))) = false
      ∧ hasStash (benchGrid []) = false ∧ beyondFrame (geoOf (gridOf (benchGrid []) 1).desc) 1 1 0 = false ∧ ghostFace (geoOf (gridOf (benchGrid []) 1).desc) 1 1 0 = none
      ∧ ghostFace (geoOf (gridOf (benchGrid []) 1).desc) 3 0 0 = some (1, 2) ∧ landedBase ((gridOf (benchGrid []) 1).faces.get 1) 0 = some 0
      ∧ landedBase ((gridOf (benchGrid []) 1).faces.get 1) 1 = some 0 ∧ 2 ≤ 1 * (2 - (0 - 0)) ∧ 1 * (2 - 1) < 2 ∧ (gridOf (bench []) 1).defined = false := by decide +kernel

/-! ## Partitions and the debug module -/

/-- R367, R361: the core parks itself behind the instruction, out of a trap frame at TRAPPC, and asks another core; TLBINV. -/
theorem test_park :
    get (exec (.park 5) (bench [])) (fun t => (t.cpu.parked, t.cpu.trapCause, t.cpu.trapPc)) = some (some 0x1004, 0x21, 0x1004)
      ∧ get (exec (.park 6) (benchTrapped 0x2000)) (fun t => (t.cpu.trap.isNone, t.cpu.parked)) = some (true, some 0x2000)
      ∧ get (exec (.park 6) (benchTask [(6, 0x4000000000000001)])) (fun t => t.cpu.q3) = some [.park 1 { op := 1, how := 0, part := 0 }]
      ∧ trapAfter (bench [(6, 0xC000000000000000)]) [.park 6, .tlbinv 5 6] = [some (true, 0x1D, reasoned 1 0xC000000000000000), some (true, 0x1D, reasoned 1 0xC000000000000000)] := by decide

/-- A machine in a trap frame at the mapped page, whose window is to be saved and restored. -/
def benchSave : State :=
  let s := benchMapped [(4, 0x77)]
  takeTrap { s with cpu := { s.cpu with tvec := 0x4001 } } causeSvc 0

/-- The words `areaOperand` refuses, by reason. -/
def areaReason (s : State) (x : Word) : Option Nat := match areaOperand s x with
  | .error r => some r
  | .ok _ => none

/-- For PartitionInstructions, clause by clause; of the two whole-context clauses, the operand. -/
theorem meets_partition :
    (0 : Word).toNat % 2 ^ 60 = 0 ∧ (bench []).cpu.frames ≠ [] ∧ (bench []).cpu.trap = none ∧ (benchTrapped 0).cpu.trap.map (·.operation) = some none
      ∧ (0x4000000000000001 : Word).toNat = 1 * 2 ^ 62 + 0 * 2 ^ 60 + (0x4000000000000001 : Word).toNat % 2 ^ 18 ∧ validTarget (benchTask []) 1 = true
      ∧ (0xC000000000000000 : Word).toNat / 2 ^ 62 = 3 ∧ 2 ^ 63 ≤ (0x8000000000000000 : Word).toNat
      ∧ areaReason (bench []) 3 = some 1 ∧ areaReason (bench []) 0 = some 2 ∧ areaReason (bench []) 0x100000001 = some 5
      ∧ areaReason benchSave 0x100000001 = none ∧ areaReason benchSave 0x100000000 = none ∧ awaitsAny benchSave = false ∧ isFenced benchSave 0 = false
      ∧ benchSave.cpu.frames.map (fun f => (f.spilled, f.poison)) = [(false, [])]
      ∧ ends (storeAll 0x100000000 (inDwords (0, windowBytes [(4, 0x77)])) benchSave) = 0
      ∧ ends (loadAll 0x100000000 ((List.range 32).map fun i => 8 * i) benchSave) = 0 ∧ poisonedContext benchSave (recordedCore benchSave wholeSave) = none
      ∧ (0x2000000000000000 : Word).toNat % 2 ^ 61 = 0 ∧ (0x2000000000000000 : Word).getLsbD 61 = true ∧ clusterInRect (publish (benchTask [])) = true
      ∧ clusterInRect (publish (bench [])) = false := by decide +kernel

/-- A core whose slice is due, with nothing outstanding: a task runs, or the core is at rest. -/
def benchSlice (idle : Bool) : State :=
  let s := bench []
  { s with cpu := { s.cpu with slat := 100, slcfg := 1, time := 30000, synced := true, frames := if idle then [] else s.cpu.frames } }

theorem test_slice :
    get (exec .sliceInstant (benchSlice false)) (fun t => (t.cpu.switching, t.cpu.away)) = some (true, false)
      ∧ get (exec (.parkRequest { op := 2, how := 0, part := 0 }) (bench [])) (fun t => (t.cpu.parked, t.cpu.trapCause)) = some (some 0x1000, 0x21)
      ∧ get (exec (.parkRequest { op := 1, how := 0, part := 0 }) { bench [] with cpu := { (bench []).cpu with parked := some 0x2000 } }) (fun t => (t.cpu.parked, readPc t)) = some (none, 0x2000) := by decide +kernel

/-- A core whose watchdog has counted past its limit. -/
def benchWatchdog : State := { bench [] with cpu := { (bench []).cpu with partid := 0x1000000000000, wdCount := 2000000 } }

/-- For PartitionEvents, clause by clause; of the restore, that the core is away. -/
theorem meets_slice :
    sliceDue (bench []) = false ∧ sliceDue (benchSlice false) = true ∧ isResting (benchSlice false) = false ∧ isResting (benchSlice true) = true ∧ (benchSlice true).cpu.saving = none
      ∧ enginesQuiet (benchSlice true) = true ∧ (benchSlice true).mem.grants = [] ∧ (benchSlice true).cpu.inFlight = [] ∧ (benchSlice true).cpu.acks = [] ∧ (benchSlice true).mem.buffer = [] ∧ (100 : Word).toNat + 20000 ≤ (30000 : Word).toNat
      ∧ (bench []).cpu.away = false ∧ (bench []).cpu.parked = none ∧ (benchTrapped 0).cpu.trap.isSome = true ∧ (bench []).cpu.resuming = none ∧ partOf (bench []) = 0 ∧ (bench []).cpu.wdPosted = false
      ∧ 0 < watchdogLimit benchWatchdog ∧ watchdogLimit benchWatchdog < benchWatchdog.cpu.wdCount ∧ (bench []).cpu.wdCount ≤ watchdogLimit (bench [])
      ∧ get (exec .watchdog benchWatchdog) (fun t => t.cpu.wdPosted) = some true := by decide +kernel

/-- The debug module enabled, with the core halted at 0x2000 and stepped, or running and triggered. -/
def benchHalted : State :=
  let s := bench [(5, 3)]
  { s with cpu := { s.cpu with halted := true }, dbg := { s.dbg with en := true, step := 1, halted := 1, frozen := true, dpc := [(0, 0x2000)], adata := 9 } }

def benchTrigger : State :=
  let s := benchRunning
  { s with dbg := { s.dbg with en := true, xtin := true } }

/-- R371 to R377: a halt request, a resume with STEP, a trigger, and abstract commands over x5 of level 20 and a doubleword of
local memory. -/
theorem test_debug :
    get (exec (.haltreq 1) benchTrigger) (fun t => (t.cpu.halted, t.dbg.dpc.get 0, t.dbg.cause)) = some (true, 0x1000, 1)
      ∧ get (exec (.resumereq 1) benchHalted) (fun t => (t.cpu.halted, readPc t, t.cpu.stepping)) = some (false, 0x2000, true)
      ∧ get (exec .debugTrigger benchTrigger) (fun t => (t.cpu.halted, t.dbg.cause)) = some (true, 2)
      ∧ get (exec (.acmdReadContext 0x1C28) benchHalted) (fun t => (t.dbg.adata, t.dbg.astat)) = some (3, 0)
      ∧ get (exec (.acmdWriteContext 0x1C28) benchHalted) (fun t => ((frameAt t 20).map fun f => f.regs.get 5)) = some (some 9)
      ∧ get (exec (.acmdReadContext 0x41000) benchHalted) (fun t => t.dbg.astat) = some 2
      ∧ get (exec (.acmdWriteVa 0x3000) benchHalted) (fun t => getLocals t (ownKey t 0x3000) 2) = some [9, 0]
      ∧ get (exec (.acmdReadVa 0x3000) { benchHalted with mem := { benchHalted.mem with lmem := [(0x3000, 8)] } }) (fun t => t.dbg.adata) = some 8 := by decide +kernel

/-- A halted core with a finished operation, and with a copy in channel 2 whose accesses have been made. -/
def benchStepped : State :=
  let s := benchHalted
  { s with eng := { s.eng with
    running := some { cmd := acz1, chunk := 0, status := 0, fault := none, trapPending := false, finished := true }
    channels := [(2, some { copy4 with result := some (0, 4) })] } }

/-- Another core of the cluster halted; a partition whose Peat mode is replay. -/
def benchLone : State := { bench [] with dbg := { (bench []).dbg with en := true, halted := 2 } }

def benchReplay : State :=
  let m : Message := { hdr0 := 0x0003000000001008, hdr1 := 1, body := ⟨7, 0, 0, 0, 0, 0⟩ }
  let s := { bench [] with cpu := { (bench []).cpu with peatcfg := 2, queues := [(3, [.message m false 0])] } }
  { s with cfe := { s.cfe with replay := [dispatchRecord s 3 (.message { m with hdr1 := 2 } false 0)] } }

/-- For the first half of DebugAndErrorEvents, clause by clause. -/
theorem meets_debug :
    benchTrigger.dbg.en = true ∧ (1 : BitVec 4).getLsbD (coreIndex benchTrigger.cpu.coreId) = true ∧ benchTrigger.cpu.halted = false ∧ benchHalted.cpu.halted = true
      ∧ benchHalted.cpu.trapWaits = false ∧ (bench []).dbg.xtin = false ∧ enginesFrozen benchStepped = true ∧ enginesHeld benchStepped = false
      ∧ (8 : Word).toNat % 16 ≠ coreIndex benchStepped.cpu.coreId ∧ (0 : Word).toNat % 16 = coreIndex benchStepped.cpu.coreId ∧ (8 : Word).getLsbD 3 = true
      ∧ (∀ j, j < 16 → j ≠ 2 → benchStepped.eng.channels.get j = none) ∧ benchHalted.dbg.astat ≠ 1 ∧ benchHalted.cpu.away = false ∧ (frameAt benchHalted 20).isSome = true
      ∧ 0x41000 ≤ (0x41000 : BitVec 55).toNat ∧ isFenced benchHalted 0 = false ∧ inStash benchHalted (ownKey benchHalted 0x3000) 1 = false
      ∧ benchHalted.mem.shadows = [] ∧ benchHalted.dbg.halted ≠ 15 ∧ benchTrigger.dbg.halted = 0 ∧ benchTrigger.dbg.xtin = true ∧ benchTrigger.mem.kept = []
      ∧ peatModeOf benchTrigger (partOf benchTrigger) ≠ 2 ∧ (2 : BitVec 4) &&& ~~~benchLone.dbg.halted &&& ~~~(BitVec.ofNat 4 (2 ^ coreIndex benchLone.cpu.coreId)) = 0
      ∧ benchDone.eng.running = none ∧ bestLevel benchDone = none
      ∧ (bench []).dbg.en = false ∧ (bench []).cpu.pcscfg.getLsbD 5 = false ∧ isForcedIn (bench []) 0 .core = false ∧ isForcedIn benchReplay 0 .core = true ∧ unitHolds benchReplay 0 .core = true
      ∧ get (exec (.replayHoldLimit { part := 0, unit := .core }) benchReplay) (fun t => (t.cfe.diverged.length, isForcedIn t 0 .core)) = some (1, false)
      ∧ get (exec (.engstep 0) benchStepped) (fun t => t.eng.running.isNone) = some true ∧ get (exec (.engstep 8) benchStepped) (fun t => t.eng.channels.get 2) = some none := by decide +kernel

/-- R222 to R224: an error in local memory, in home memory, in x5, corrected, and the scrubber where there is no memory; for
the second half of DebugAndErrorEvents. -/
theorem test_errors :
    get (exec (.sramError (.local_ 0 5) false) (bench [])) (fun t => (t.mem.lpoison.get 5, t.cfe.ras.length)) = some (true, 1)
      ∧ populated (8 * 0x140690) = true ∧ get (exec (.sramError (.global 0x140690) false) (bench [])) (fun t => t.mem.ppoison.get 0x140690) = some true
      ∧ get (exec (.sramError (.register 5) false) (bench [])) (fun t => poisonMarks t) = some [{ reg := 5, addr := 0 }]
      ∧ get (exec (.sramError (.register 5) true) (bench [])) (fun t => (poisonMarks t, t.cfe.ras.length)) = some ([], 1)
      ∧ populated (0x1FFFFFFFFF * 128) = false ∧ get (exec (.patrolScrub 0x1FFFFFFFFF) (bench [])) (fun t => t.cfe.ras.length) = some 0 := by decide +kernel

/-- R223: an error in v1 of the running level; VADD reads it and traps POISON, VBCAST writes it and it is gone. -/
theorem test_bank_error :
    let s := { bench [] with cpu := { (bench []).cpu with bankPoison := [(128 * level (bench []) + 33, true)] } }
    get (exec (.sramError (.bank 33) false) (bench [])) (fun t => t.cpu.bankPoison) = some [(128 * level (bench []) + 33, true)]
      ∧ trapAfter s [.vadd 3 1 2 0 2, .vadd 3 2 2 0 2] = [some (true, zextField causePoison, 0), some (false, 0, 0)]
      ∧ get (exec (.vbcast 1 4 0 2) s) (fun t => t.cpu.bankPoison) = some [] := by decide +kernel

/-! ## Switch kernels and queue programs -/

/-- Partition 5 of core (0, 0) of device 0. -/
def part5 : Partition :=
  { id := 5, partid := 5, fhand := 0, keymask := 1, xroot := 0x100001, prect := [0x8000000000000000], slat := 0, rlog := 0, sliceOn := false, area := 0, lvkeep := 0, lmkeep := 0, peat := 0, replim := 0,
    logVa := 0, logSize := 0 }

def class5 : FlowClass := { placedClass [0x04000063] with part := 5 }

/-- A message packet of flow class 1 of partition 5 for core 0: its flow's id is payload word 0. -/
def packet5 : Packet :=
  { ddev := 0, dport := 0, sport := 0, part := 5, vc := 0, kind := 1, sdev := 1, flow := 1, pa := 0, body := toBytes 8 0x0003000000001008 ++ toBytes 8 0 ++ toBytes 8 7 ++ List.replicate 40 0 }

/-- A kernel that runs on the packet on processor 2, with a message image for core 0 in its scratch memory. -/
def benchKernel (x : Table Word) : State :=
  let s := State.reset
  let i : Invocation :=
    { cls := class5, fid := 7, timeout := false, packet := some packet5, origin := .link 3, window := putBytes [] 0 packet5.body, len := 64,
      scratch := putBytes [] 0x40 (toBytes 8 0x0003000000001008), pc := 0x10, x := x, v := [], k := [], fpctl := 0, vflane := 0, cycles := 9 }
  { s with
    fab := { s.fab with sedge := [(2, some i)], loaded := [class5], records := [{ key := { part := 5, cls := 1, fid := 7 }, recs := 1, data := [], poison := [], since := 0, fired := false }] }
    cfe := { s.cfe with partitions := [part5] }
    own := { s.own with turn := .sedge 2 } }

/-- R417 to R419: a pass of LOOPB and its end, a packet dropped and one sent on, a message emitted, and an image that is none. -/
theorem test_kernel :
    get (exec (.loopb 5 3 4) (benchKernel [(5, 2)])) (fun t => (readX t 5, readPc t)) = some (3, 8)
      ∧ get (exec (.loopb 5 3 4) (benchKernel [(5, 3)])) (fun t => (readX t 5, readPc t)) = some (3, 0x14)
      ∧ get (exec .pktdrop (benchKernel [])) (fun t => (t.fab.sedge.get 2, t.own.turn)) = some (none, .core)
      ∧ get (exec (.pktfwd 6) (benchKernel [(6, 0x3000000)])) (fun t => ((t.fab.outputs.get 240).map fun q => (q.packet.flow, q.origin))) = some [(3, .link 3)]
      ∧ get (exec (.pktfwd 6) (benchKernel [(6, 0x1000000)])) (fun t => (t.fab.waiting.length, (t.fab.outputs.get 240).length)) = some (1, 0)
      ∧ get (exec (.pktemit 6 7) (benchKernel [(6, 0x20040), (7, 0x101)])) (fun t => (t.fab.waiting.length, readPc t)) = some (1, 0x14)
      ∧ get (exec (.pktemit 6 7) (benchKernel [(6, 0x20040), (7, 0x105)])) (fun t => ((t.fab.outputs.get 241).map fun q => (q.packet.flow, q.packet.part), readPc t)) = some ([(5, 5)], 0x14)
      ∧ get (exec (.pktemit 6 7) (benchKernel [(6, 0x20001)])) (fun t => (t.fab.sedge.get 2).isNone) = some true := by decide +kernel

/-- A queue program of queue 1 and partition 5 that may raise signal 4, with a count of 2 for signal 5 and a launch header at the
start of its scratch memory. -/
def benchQueue (x : Table Word) (waits : Bool) : State :=
  let s := benchProgram x
  let r : QpRun := { queue := 2, command := [], prog := [], sets := [], launched := false, scratch := [], pc := 0, x := [], fpctl := 0 }
  { s with cfe := { s.cfe with signals := [(5, 2)], waiters := if waits then [{ run := r, signal := 4, part := 0, since := 0, examined := false, ready := false }] else [] } }

/-- R419, R420, R441. -/
theorem test_queue_program :
    get (exec (.signal 6) (benchQueue [(6, 4)] false)) (fun t => t.cfe.signals.get 4) = some 1
      ∧ get (exec (.signal 6) (benchQueue [(6, 4)] true)) (fun t => (t.cfe.signals.get 4, t.cfe.waiters.map (·.ready))) = some (0, [true])
      ∧ get (exec (.signal 6) (benchQueue [(6, 6)] false)) (fun t => t.cfe.slots.get 0) = some none
      ∧ get (exec (.parkq 6) (benchQueue [(6, 5)] false)) (fun t => t.cfe.signals.get 5) = some 1
      ∧ get (exec (.parkq 6) (benchQueue [(6, 6)] false)) (fun t => (t.cfe.waiters.map (·.signal), t.cfe.slots.get 0)) = some ([6], none)
      ∧ get (exec (.launch 6 7) (benchQueue [(6, 0x20000), (7, 9)] false)) (fun t => (t.cfe.launches.map fun l => (l.gang, l.range))) = some [(9, false)]
      ∧ get (exec (.launch 6 7) (benchQueue [(6, 0x20000), (7, 0x8000000000000009)] false)) (fun t => (t.cfe.launches.map fun l => (l.gang, l.range))) = some [(9, true)]
      ∧ get (exec (.launch 6 7) (benchQueue [(6, 0x20FC1)] false)) (fun t => t.cfe.slots.get 0) = some none := by decide +kernel

/-- For BoundedInstructions, clause by clause. -/
theorem meets_bounded :
    (runningKernel (benchKernel [])).map (·.1) = some 2 ∧ kernelTarget (benchKernel []) 5 0 = true ∧ (dword packet5.body 0) &&& 0xF8C0000000000000 = 0 ∧ hdrLevel (dword packet5.body 0) < 24
      ∧ packet5.kind = 1 ∧ emitUsed (benchKernel []) 2 < 8 ∧ idDev (coreOf 0) = ownDev (benchKernel []) ∧ (runningProgram (benchQueue [] true)).isSome = true
      ∧ (4 : BitVec 8) ∈ ([4] : List (BitVec 8)) ∧ (benchQueue [] true).cfe.waiters.map (fun w => (w.ready, w.part, w.signal)) = [(false, 0, 4)]
      ∧ (benchQueue [] false).cfe.signals.get 5 ≠ 0 ∧ (benchQueue [] false).cfe.signals.get 6 = 0
      ∧ ([.loopb 5 3 4, .pktdrop, .pktfwd 6, .pktemit 6 7] : List Instr).all (fun i => decide (check (benchKernel []) i = .pass)) = true
      ∧ ([.loopb 5 3 4, .signal 6, .parkq 6, .launch 6 7] : List Instr).all (fun i => decide (check (benchQueue [] false) i = .pass)) = true
      ∧ ((benchQueue [] false).cfe.slots.get 0).map (fun r => (ends (queueLoad (benchQueue [] false) r 0x20000 64), ends (queueLoad (benchQueue [] false) r 0x20040 24))) = some (0, 0)
      ∧ 0x40 < (0x20FC1 : Word).toNat + 64 ∧ 0x21000 < (0x20FC1 : Word).toNat + 64 := by decide +kernel

/-! ## The fabric -/

/-- A switch with link 3 up and link 4 down, a packet for link 3's peer waiting at its output and one for core 0 at the F-die, both of
the device's own; a timer of class 1's flow 7 that is due. -/
def benchSwitch : State :=
  let s := State.reset
  let q : Queued := { packet := { packet5 with flow := 0, ddev := 4 }, age := 1, group := [], origin := .own }
  { s with
    fab := { s.fab with outputs := [(24, [q]), (240, [{ q with packet := packet5 }])], links := [(4, { down := true })], loaded := [{ class5 with tmo := 3 }],
                        records := [{ key := { part := 5, cls := 1, fid := 7 }, recs := 1, data := [], poison := [], since := 0, fired := false }] }
    cpu := { s.cpu with time := 3000, synced := true }
    cfe := { s.cfe with partitions := [part5] } }

/-- The packet at the output of its die; and a machine on device 1. -/
def benchPort : State :=
  let q : Queued := { packet := { packet5 with flow := 0, part := 0 }, age := 1, group := [], origin := .own }
  { State.reset with fab := { State.reset.fab with outputs := [(256, [q]), (264, [{ q with packet := { q.packet with kind := 31 } }])] } }

def benchDev1 : State := { State.reset with cpu := { State.reset.cpu with coreId := 0x400, time := 3000, synced := true } }

/-- R397 to R407: an arrival, a departure on a link, the arrival of a packet at its kernel's waiting list, a control flit, a period, a link that goes
down and comes up, and TIME. -/
theorem test_fabric :
    get (exec (.packetForward (.arrive 3 packet5)) State.reset) (fun t => ((t.fab.outputs.get 240).map (·.origin), (linkOf t 3).occ.get 0)) = some ([.link 3], 2)
      ∧ get (exec (.packetForward (.depart 3)) benchSwitch) (fun t => (t.fab.outputs.get 24, t.fab.departed.length)) = some ([], 1)
      ∧ get (exec (.packetForward (.depart 30)) benchSwitch) (fun t => (t.fab.outputs.get (8 * portOutput 0)).length) = some 1
      ∧ get (exec (.packetForward (.arrive 3 packet5)) benchSwitch) (fun t => (t.fab.waiting.length, (linkOf t 3).occ.get 0)) = some (1, 2)
      ∧ get (exec (.packetForward (.depart 32)) benchPort) (fun t => (t.own.agenda.length, t.fab.delivered.length)) = some (benchPort.own.agenda.length + 1, 0)
      ∧ get (exec (.controlFlit 3 (controlFlit 0 (some (600 :: List.replicate 7 512)) [])) benchSwitch) (fun t => ((linkOf t 3).limit.get 0, (linkOf t 3).limit.get 1)) = some (600, 512)
      ∧ get (exec (.limitPeriod 3) benchSwitch) (fun t => ((linkOf t 3).target.get 0, (linkOf t 3).epoch)) = some (1024, 1)
      ∧ get (exec (.linkDown { dev := 0, link := 3 }) benchSwitch) (fun t => ((linkOf t 3).down, (t.fab.outputs.get 24).length)) = some (true, 0)
      ∧ get (exec (.linkUp { dev := 0, link := 4 }) benchSwitch) (fun t => (linkOf t 4).down) = some false
      ∧ get (exec (.ctrl (.time 4000)) benchSwitch) (fun t => t.cpu.time) = some 3000
      ∧ get (exec (.ctrl (.time 4000)) benchDev1) (fun t => t.cpu.time) = some 4000 := by decide +kernel

/-- A switch whose processors but 5 are taken, with the packet waiting for its kernel. -/
def benchWaiting : State :=
  let s := benchSwitch
  let i : Invocation := { cls := class5, fid := 8, timeout := false, packet := none, origin := .own, window := [], len := 0, scratch := [], pc := 0, x := [], v := [], k := [], fpctl := 0, vflane := 0, cycles := 2048 }
  { s with fab := { s.fab with waiting := [.packet packet5 .own], sedge := ((List.range 16).filter (· ≠ 5)).map fun n => (n, some i) } }

/-- For FabricEvents, clause by clause. -/
theorem meets_fabric :
    isConnected State.reset 3 = true ∧ (linkOf State.reset 3).down = false ∧ inDomain State.reset 0 = true ∧ (outputFor State.reset 1 0).isSome = true ∧ isClassified State.reset packet5 = false ∧ isClassified benchSwitch packet5 = true
      ∧ (nextVc benchPort 32).isSome = true ∧ (actOf benchPort { packet5 with flow := 0, part := 0 }).isSome = true ∧ actOf benchPort { packet5 with flow := 0, part := 0, kind := 31 } = none
      ∧ controlFlitOk (controlFlit 0 (some [600]) []) = true ∧ controlFlitOk [] = false ∧ isGrandmaster State.reset = true ∧ isGrandmaster benchDev1 = false
      ∧ (benchSwitch.cpu.inFlight.isEmpty && benchSwitch.eng.exchanges.isEmpty && benchSwitch.eng.releases.isEmpty && benchSwitch.mem.firings.isEmpty
        && benchSwitch.mem.owed.isEmpty && benchSwitch.cfe.hostAcks.isEmpty) = true ∧ benchSwitch.fab.farDown = [] ∧ { benchSwitch.fab with farDown := [(1, 4)] }.farDown ≠ []
      ∧ kindAdmits 1 (List.replicate 65 0) = false ∧ nextVc State.reset 3 = none ∧ nextVc benchSwitch 3 = some 0 ∧ nextVc benchSwitch 30 = some 0 ∧ (loadedClass benchSwitch 5 1).isSome = true
      ∧ loadedClass benchSwitch 5 0 = none ∧ isConnected benchSwitch 4 = true ∧ (linkOf benchSwitch 4).down = true ∧ (linkOf benchSwitch 3).replays + 1 < 16 ∧ benchSwitch.cpu.poweredOff = false
      ∧ startable benchSwitch = [] ∧ startable benchWaiting = [0] ∧ freeSedge benchWaiting = [5] ∧ (flowRecord benchWaiting { part := 5, cls := 1, fid := flowId class5 packet5 }).isSome = true
      ∧ timerDue benchSwitch { part := 5, cls := 1, fid := 7 } = true ∧ timerDue benchSwitch { part := 5, cls := 1, fid := 8 } = false ∧ flowRuns benchSwitch { part := 5, cls := 1, fid := 7 } = false
      ∧ class5.timeout = 0 ∧ (benchWaiting.fab.sedge.get 0).map (·.cycles) = some 2048 ∧ benchWaiting.fab.sedge.get 5 = none
      ∧ get (exec (.deadline 0) benchWaiting) (fun t => (t.fab.sedge.get 0).isNone) = some true
      ∧ get (exec (.flowTimeout { part := 5, cls := 1, fid := 7 }) benchSwitch) (fun t => t.fab.records.length) = some 0 := by decide +kernel

/-! ## The host link -/

/-- Partition 5 of the cores (0, 0) to (3, 0) of device 2, with the tables of `benchMapped`. -/
def partMapped : Partition := { part5 with xroot := 0x100001, prect := [0x8000000002000C00] }

/-- A user queue of partition 5. -/
def queue5 : Queue :=
  { elog := 4, part := 5, vec := 3, cring := 0x10000, pring := 0x20000, head := 2, tail := 2, stopped := false, commands := [], prog := [0x1], sets := [4], loaded := false, memory := [],
    busy := false, taken := 6, written := 17, unreported := 0, oldest := 0 }

/-- The machine of `benchMapped` with its partition in the CFE and queue 1. -/
def benchHost : State :=
  let s := benchMapped []
  { s with cfe := { s.cfe with partitions := [partMapped], bootState := 1, queues := [(1, some queue5)], nextTid := 0x40 } }

/-- A packet from the host. -/
def fromHost (type part len : Nat) (addr : Word) (body : List Byte) : HtlPacket :=
  { type := BitVec.ofNat 6 type, part := BitVec.ofNat 6 part, stat := 0, tid := 9, len := BitVec.ofNat 9 len, rsvd := false, addr := addr, body := body }

/-- Type, status, transaction and the body as a number of the packets to the host. -/
def toHostAfter (s : State) (is : List Instr) : List (Option (List (Nat × Nat × Nat × Nat))) :=
  is.map fun i => get (exec i s) fun t => t.cfe.toHost.map fun p => (p.type.toNat, p.stat.toNat, p.tid.toNat, ofBytes p.body)

/-- R429, R432: a read of memory, one that is malformed, one of an unknown partition and one of no page. -/
theorem test_host_read :
    toHostAfter benchHost [.mrd (fromHost 4 5 8 0x100003480 []), .mrd (fromHost 4 5 0 0x100003480 []), .mrd (fromHost 4 6 8 0x100003480 []), .mrd (fromHost 4 5 8 0x100010000 [])]
      = [some [(0x10, 0, 9, 0x80000005)], some [(0x10, 1, 9, 0)], some [(0x10, 5, 9, 0)], some [(0x10, 2, 9, 0)]] := by decide +kernel

/-- R430: a register written and a register read. -/
theorem test_host_registers :
    toHostAfter benchHost [.awr (fromHost 1 0 8 0x10 (toBytes 8 7)), .ard (fromHost 2 0 8 0x18 [])] = [some [(0x11, 0, 9, 0)], some [(0x10, 0, 9, 3000)]]
      ∧ get (exec (.awr (fromHost 1 0 8 0x10 (toBytes 8 7))) benchHost) (·.cfe.cfewd) = some 7 := by decide +kernel

/-- R434: a doorbell, whose HRD asks for the command at slot 2 of the ring, and one beyond the ring. -/
theorem test_doorbell :
    get (exec (.doorbell 1 3) benchHost) (fun t => t.cfe.toHost.map fun p => (p.type, p.tid, p.len, p.addr)) = some [(9, 0x40, 64, 0x10080)]
      ∧ get (exec (.doorbell 1 0x100000000) benchHost) (fun t => (t.cfe.queues.get 1).map (·.stopped)) = some (some true) := by decide +kernel

/-- R429: a write to memory is in its home line when it is acknowledged; while a word is held it waits. -/
theorem test_host_write :
    get (exec (.mwr (fromHost 3 5 8 0x100003480 (toBytes 8 77))) benchHost) (fun t => (ofBytes (homeBytes t 0 0xA03480 8), t.cfe.toHost.map fun p => (p.type, p.stat, p.tid))) = some (77, [(0x11, 0, 9)]) := by
  decide +kernel

/-! ## Administrative commands -/

/-- A command of 64 bytes: OP, the tag 7, and operand words. -/
def command (op : Nat) (ws : List Nat) : List Byte := toBytes 8 (op * 2 ^ 56 + 7) ++ (ws ++ List.replicate (7 - ws.length) 0).flatMap (toBytes 8)

/-- The device with a command in progress that has read `bs`. -/
def benchAdmin (op : Nat) (ws : List Nat) (bs : List Byte) : State :=
  let s := benchHost
  let r : HostRead := { tid := 0, addr := 0, want := bs.length, got := bs, failed := false }
  { s with cfe := { s.cfe with queues := [(0, some { queue5 with pring := 0x30000, written := 0 }), (1, some queue5)], command := some (command op ws), read := some r } }

/-- The completion record that the next packet to the host writes: its status, its tag and its value. -/
def ended (s : State) (i : Instr) : Option (Option (Nat × Nat × Nat)) :=
  get (exec i s) fun t => (t.cfe.toHost.find? fun p => decide (p.addr = 0x30000)).map fun p => (ofBytes p.body / 2 ^ 48 % 2 ^ 16, ofBytes p.body % 2 ^ 32, ofBytes (p.body.drop 8))

/-- A queue program of one word behind its header of R440. -/
def programImage (w : Nat) : List Byte := toBytes 8 0xB600000000010001 ++ toBytes 8 4 ++ toBytes 4 w

/-- A block for PCREATE of partition 6 with core (4, 0) of device 2. -/
def block6 : List Byte :=
  toBytes 8 6 ++ List.replicate 56 0 ++ toBytes 8 0x8000000002001004 ++ List.replicate 56 0 ++ List.replicate 896 0

/-- A record for LOADFC: class 3 of partition 5, whose kernel stands at 0x100003480. -/
def class3 : List Byte :=
  toBytes 8 (0xF703000000000000 + 5 * 2 ^ 42 + 2 ^ 37) ++ toBytes 8 0x77 ++ toBytes 8 0x100003480 ++ toBytes 8 0x100003480 ++ toBytes 8 0x800 ++ List.replicate 24 0

/-- The device with a kernel of one word, PKTDROP, behind its header of R425. -/
def benchClass : State :=
  let s := benchAdmin 6 [2, 0x50000] class3
  { s with mem := { s.mem with pmem := putBytes (putBytes s.mem.pmem 0xA03480 (toBytes 8 0xB500000000000001)) 0xA03488 (toBytes 4 0x04000063) } }

/-- A gang of two ranks, (1, 0) and (2, 0), of queue 1. -/
def gang9 : Gang :=
  { id := 9, part := 5, rect := 0x2000801, queue := 1, tag := 0x55, retired := [], fenced := false, chunk := 4, ranges := [], hdr0 := 0, payload := [] }

/-- The device with a command in progress and `gang9`. -/
def benchRetire (rank : Nat) : State :=
  let s := benchAdmin 8 [9, rank] []
  { s with cfe := { s.cfe with gangs := [gang9] } }

/-- R436 to R440: a queue whose program does not verify, one whose number is taken; a queue destroyed, and one that
program loaded; a partition made; a slice configured. -/
theorem test_admin_queues :
    ended (benchAdmin 1 [0x50402, 0x1000, 0x2000, 0x3000] (programImage 0x6B)) .qcreate = some (some (8, 7, 0x200000000000000))
      ∧ ended (benchAdmin 1 [0x50401, 0x1000, 0x2000, 0x3000] []) .qcreate = some (some (1, 7, 0))
      ∧ ended (benchAdmin 2 [1] []) .qdestroy = some (some (0, 7, 0)) ∧ ended (benchAdmin 2 [2] []) .qdestroy = some (some (1, 7, 0))
      ∧ get (exec .qdestroy (benchAdmin 2 [1] [])) (fun t => t.cfe.queues.get 1) = some none := by decide +kernel

/-- A partition made and a flow class loaded; a cluster fenced, the own one among them; a rank retired. -/
theorem test_admin_device :
    ended (benchAdmin 3 [6, 0x40000] block6) .pcreate = some (some (0, 7, 0)) ∧ (get (exec .pcreate (benchAdmin 3 [6, 0x40000] block6)) fun t => (partitionOf t 6).isSome) = some true
      ∧ ended benchClass .loadfc = some (some (0, 7, 0)) ∧ (get (exec .loadfc benchClass) fun t => (loadedClass t 5 3).map (·.code)) = some (some [0x04000063])
      ∧ (get (exec .fenceCmd (benchAdmin 7 [0x2700] [])) fun t => (t.cfe.fenced.getLsbD 39, t.cpu.poweredOff)) = some (true, false)
      ∧ (get (exec .fenceCmd (benchAdmin 7 [0] [])) fun t => (t.cfe.fenced.getLsbD 0, t.cpu.poweredOff)) = some (true, true)
      ∧ (get (exec .retire (benchRetire 1)) fun t => t.cfe.gangs.map (·.retired)) = some [[1]] ∧ ended (benchRetire 2) .retire = some (some (1, 7, 0)) := by decide +kernel

/-- For AdminCommands: every command in progress with operands that it takes, and its next conditions. -/
theorem meets_admin_runs :
    AdminRuns (benchAdmin 1 [0x50402, 0x1000, 0x2000, 0x3000] []) (command 1 [0x50402, 0x1000, 0x2000, 0x3000]) 1 [0xFFFF003F1FFF, -1, -1, -1]
      ∧ AdminRuns (benchAdmin 2 [1] []) (command 2 [1]) 2 [0xFF] ∧ AdminRuns (benchAdmin 3 [6, 0x40000] block6) (command 3 [6, 0x40000]) 3 [0x3F, -1]
      ∧ AdminRuns (benchAdmin 4 [0x10705, 9, 0x200000, 0xFFFF00FFFFFF] []) (command 4 [0x10705, 9, 0x200000, 0xFFFF00FFFFFF]) 4 [0x1073F, -1, 0xFFFFFE00000, 0xFFFF00FFFFFF]
      ∧ AdminRuns (benchAdmin 5 [1, 0x3000] (programImage 0x17)) (command 5 [1, 0x3000]) 5 [0xFF, -1] ∧ AdminRuns benchClass (command 6 [2, 0x50000]) 6 [0xFF, -1]
      ∧ AdminRuns (benchAdmin 7 [0x2700] []) (command 7 [0x2700]) 7 [0x3F03] ∧ AdminRuns (benchRetire 1) (command 8 [9, 1]) 8 [0xFFFFFFFF, 0x3FF] := by
  unfold AdminRuns
  decide +kernel

/-- For AdminCommands, the other commands. -/
theorem meets_admin_more :
    streamMissing (flushStreams (benchAdmin 10 [0x500000205, 0x10000, 0x20000] []) 5) { partMapped with peat := 2, replim := 5, logVa := 0x10000, logSize := 0x20000 } = [] ∧
    AdminRuns (benchAdmin 9 [12, 0x4000, 0x5008] []) (command 9 [12, 0x4000, 0x5008]) 9 [0xF, -1, -1]
      ∧ AdminRuns (benchAdmin 14 [0xC03, 0x4000, 0x5008] []) (command 14 [0xC03, 0x4000, 0x5008]) 14 [0xF03, -1, -1]
      ∧ AdminRuns (benchAdmin 10 [0x500000205, 0x10000, 0x20000] []) (command 10 [0x500000205, 0x10000, 0x20000]) 10 [0xFFFFFFFF0000033F, 0x7FFFFFFFFFFFFF, -1]
      ∧ AdminRuns (benchAdmin 11 [0x70000, 0x1000, 0x1000000] []) (command 11 [0x70000, 0x1000, 0x1000000]) 11 [0x73F03, 0xFFFFFFFFFF8, 0x1FFFFCF]
      ∧ AdminRuns (benchAdmin 12 [0, 0x1000] []) (command 12 [0, 0x1000]) 12 [0xFFFF, -1]
      ∧ (partitionOf (benchAdmin 10 [] []) 5).isSome = true ∧ (partitionOf (benchAdmin 4 [] []) 5).isSome = true ∧ (userQueue (benchAdmin 2 [] []) 1).isSome = true
      ∧ userQueue (benchAdmin 2 [] []) 2 = none ∧ blockBad 6 block6 = false ∧ blockBad 7 block6 = true ∧ blockConflicts (benchAdmin 3 [] []) 6 block6 = false
      ∧ blockConflicts (benchRetire 1) 5 block6 = true ∧ programLength (programImage 0x17) = some 1 ∧ programLength [] = none
      ∧ (gangOf (benchRetire 1) 9).map (fun g => (rankCount g.rect, g.retired)) = some (2, []) ∧ gangOf (benchRetire 1) 8 = none := by
  unfold AdminRuns
  decide +kernel

/-- What a verification answers: 0 and the counts, or the reason and the offset. -/
def verdict (v : Verdict) : Nat × Nat := match v with
  | .passes _ m => (0, m)
  | .fails r o => (r, o)

/-- For AdminCommands: programs that pass and that fail, a class record, its kernel and its table, a read in full. -/
theorem meets_admin_data :
    verdict (verify true (halvesOf ((programImage 0x17).drop 16)) [0]) = (0, 0) ∧ verdict (verify true (halvesOf ((programImage 0x6B).drop 16)) [0]) = (2, 0)
      ∧ classBad benchClass class3 = false ∧ classBad benchClass (programImage 0x17) = true ∧ inDomain benchClass 2 = true ∧ benchClass.fab.classes = []
      ∧ readKernel benchClass partMapped 0x100003480 = some ([0x04000063], 0) ∧ (verdict (verify false [0x04000063] [0])).1 = 0
      ∧ readTable benchClass partMapped 0x100003480 0 = some ([], [])
      ∧ (benchClass.cfe.read.map fun r => (r.failed, decide (r.got = class3), decide (r.want ≤ class3.length))) = some (false, true, true) := by decide +kernel

/-- The bytes of a manifest entry. -/
def entryBytes (e : Nat × Word) : List Byte := toBytes 8 (e.1 / 65536 + e.1 % 65536 * 65536) ++ toBytes 8 e.2.toNat

/-- The integer of bytes that were made of one. -/
theorem ofBytes_toBytes (n : Nat) : ∀ v, ofBytes (toBytes n v) = v % 256 ^ n := by
  induction n with
  | zero => intro v; simp [toBytes, ofBytes, Nat.mod_one]
  | succ n ih =>
    intro v
    have p : (256 : Nat) ^ (n + 1) = 256 * 256 ^ n := Nat.pow_succ'
    simp only [toBytes, ofBytes, ih, BitVec.toNat_ofNat, p, Nat.mod_mul]

/-- How many they are. -/
theorem length_toBytes (n : Nat) : ∀ v, (toBytes n v).length = n := by
  induction n with
  | zero => intro v; rfl
  | succ n ih => intro v; simp [toBytes, ih]

/-- A doubleword behind a run of doublewords. -/
theorem dword_append (xs ys : List Byte) (n i : Nat) (h : xs.length = 8 * n) : dword (xs ++ ys) (n + i) = dword ys i := by
  unfold dword
  rw [show 8 * (n + i) = xs.length + 8 * i by omega, List.drop_append, List.drop_of_length_le (by omega), List.nil_append, Nat.add_sub_cancel_left]

/-- The first doubleword. -/
theorem dword_head (v : Nat) (ys : List Byte) : dword (toBytes 8 v ++ ys) 0 = BitVec.ofNat 64 v := by
  have h : (toBytes 8 v ++ ys).take 8 = toBytes 8 v := by rw [List.take_append_of_le_length (by simp [length_toBytes])]; exact List.take_of_length_le (by simp [length_toBytes])
  unfold dword wordOf
  rw [Nat.mul_zero, List.drop_zero, h, ofBytes_toBytes]
  apply BitVec.eq_of_toNat_eq
  simp [word]

/-- The bytes of a list of entries are a manifest of them. -/
theorem manifestEntries_bytes (l : List (Nat × Word)) (h : ∀ e ∈ l, e.1 < 2 ^ 32) : manifestEntries (l.flatMap entryBytes) = l := by
  induction l with
  | nil => rfl
  | cons e l ih =>
    have hl : ∀ v, (entryBytes v).length = 8 * 2 := by intro v; simp [entryBytes, length_toBytes]
    have he := h e (by simp)
    have ih := ih fun x hx => h x (by simp [hx])
    unfold manifestEntries at ih ⊢
    rw [List.flatMap_cons, List.length_append, hl, show 8 * 2 = 16 from rfl, Nat.add_div_left _ (by decide), List.range_succ_eq_map, List.map_cons, List.map_map]
    congr 1
    · have h0 : dword (entryBytes e ++ l.flatMap entryBytes) (2 * 0) = BitVec.ofNat 64 (e.1 / 65536 + e.1 % 65536 * 65536) := by
        simp only [entryBytes, List.append_assoc]; exact dword_head _ _
      have h1 : dword (entryBytes e ++ l.flatMap entryBytes) (2 * 0 + 1) = e.2 := by
        simp only [entryBytes, List.append_assoc]
        rw [show 2 * 0 + 1 = 1 + 0 by rfl, dword_append _ _ 1 0 (by rw [length_toBytes]), dword_head]
        simp
      rw [h0, h1]
      apply Prod.ext
      · have b : e.1 / 65536 + e.1 % 65536 * 65536 < 2 ^ 64 := by omega
        simp only [field, BitVec.toNat_ofNat, Nat.mod_eq_of_lt b, Nat.pow_zero, Nat.div_one, show (2 : Nat) ^ 16 = 65536 from rfl]
        have c : (e.1 / 65536 + e.1 % 65536 * 65536) / 65536 = e.1 % 65536 := by omega
        have d : (e.1 / 65536 + e.1 % 65536 * 65536) % 65536 = e.1 / 65536 := by omega
        rw [c, d]
        omega
      · rfl

/-- For AdminCommands: a host can send the present configuration, whatever the device's own fields are. -/
theorem meets_manifest : ∃ bs, manifestEntries bs = configured benchHost :=
  ⟨(configured benchHost).flatMap entryBytes, manifestEntries_bytes _ (by decide +kernel)⟩

/-! ## The host link's other conditions -/

/-- The device with a read of queue 1's next command under way, and its answer. -/
def benchFetch : State :=
  { benchHost with cfe := { benchHost.cfe with
      queues := [(1, some { queue5 with tail := 3 })], fetches := [(1, { tid := 9, addr := 0x10080, want := 64, got := [], failed := false })] } }

/-- A command arrives. -/
theorem test_command :
    get (exec (.cpl (fromHost 0x10 0 64 0 (command 1 [])) ) benchFetch) (fun t => (t.cfe.queues.get 1).map fun x => (x.head, x.commands.length)) = some (some (3, 1)) := by decide +kernel

/-- A completion record of queue 1: its place in the ring, and the interrupt at the 16th. -/
theorem test_completion :
    (complete benchHost 1 5 0 6).cfe.toHost.map (fun p => (p.type, p.addr, ofBytes (p.body.drop 8))) = [(8, 0x20010, 6)]
      ∧ (complete { benchHost with cfe := { benchHost.cfe with coalesce := 1 } } 1 5 0 6).cfe.toHost.map (·.type) = [8, 0x0A] := by decide +kernel

/-- For HostRequests: a write to memory that is performed at once, and one that waits for a held word. -/
theorem meets_host_write :
    let p := fromHost 3 5 8 0x100003480 (toBytes 8 77)
    benchHost.cfe.hostDown = false ∧ benchHost.mem.kept = [] ∧ memoryBad p 3 = false ∧ memoryBad p 4 = true ∧ partitionOf benchHost 6 = none ∧ partitionOf benchHost p.part = some partMapped
      ∧ (match partLeaf benchHost partMapped .write 0x100003480 with
        | .ok l => decide (leafPa l 0x100003480 = 0xA03480) && !(hostWaits benchHost 9 (hostPlaces l.word 0xA03480 8)) && isHome benchHost (leafLine l 0xA03480)
            && decide (holdersOf benchHost (leafLine l 0xA03480).line = [])
        | .error _ => false) = true
      ∧ hostBlocked benchHost = false ∧ hostBlocked { benchHost with mem := { benchHost.mem with kept := [.hostWrite 0 0xA03480 [] 0] } } = true
      ∧ hostWaits { benchHost with mem := { benchHost.mem with dir := [(0x14069, { writers := [{ core := 0x801, words := 1, release := 0 }], sharers := [], overflow := false })] } } 9
        (hostPlaces 0x02140000_00A0006D 0xA03480 8) = true
      ∧ partMissing benchHost partMapped 0x100003480 8 = []
      ∧ (List.range 8).all (fun i => populated (0xA03480 + i)) = true ∧ benchHost.cpu.acks = [] ∧ benchHost.cfe.hostAcks = []
      ∧ (match partLeaf benchHost partMapped .write 0x100010000 with
        | .ok _ => 0
        | .error e => e) = 2 := by decide +kernel

/-- For HostRequests: the slice of the written line has room. -/
theorem meets_host_room : hasRoom benchHost { dev := 2, line := 0x14069 } := .inr ⟨0, 1, by decide⟩

/-- For HostRequests: register accesses at the ends of the map, a read with its bytes, an idle queue 0, and queues that a doorbell moves and stops. -/
theorem meets_host :
    (fromHost 1 0 8 0xFF8 (toBytes 8 0)).addr.toNat = (0xFF8 : BitVec 12).toNat ∧ (fromHost 1 0 8 0x107F8 (toBytes 8 0)).addr.toNat = 0x10000 + 8 * (255 : BitVec 8).toNat
      ∧ memoryBad (fromHost 4 5 8 0x100003480 []) 4 = false ∧ homePoisoned benchHost 0xA03480 = false ∧ homeByte benchHost 0 0xA03480 = 5
      ∧ adminIdle benchHost = true ∧ benchHost.cfe.aqPending = [] ∧ adminIdle (benchAdmin 1 [] []) = false
      ∧ outstanding benchHost 1 queue5 3 ≤ 2 ^ queue5.elog ∧ 2 ^ queue5.elog < outstanding benchHost 1 queue5 19 ∧ queue5.head ≠ 3 ∧ benchHost.cfe.fetches = []
      ∧ queue5.unreported + 1 < benchHost.cfe.coalesce.toNat ∧ benchHost.cfe.hold ≠ 0
      ∧ get (exec (.interruptHold 1) { benchHost with cfe := { benchHost.cfe with queues := [(1, some { queue5 with unreported := 3 })], age := 1000 * benchHost.cfe.hold } })
          (fun t => t.cfe.toHost.map (·.type)) = some [0x0A] := by decide +kernel

/-! ## Launches and bring-up -/

/-- Queue 1 with a command to run, and a waiter of queue 2 whose signal came or not. -/
def benchReady (ready : Bool) : State :=
  let s := benchHost
  let r : QpRun := { queue := 2, command := [], prog := [], sets := [], launched := false, scratch := [], pc := 8, x := [], fpctl := 0 }
  let w : Waiter := { run := r, signal := 4, part := 5, since := 0, examined := false, ready := ready }
  { s with
    cfe := { s.cfe with queues := [(0, some queue5), (1, some (if ready then queue5 else { queue5 with commands := [command 9 []], loaded := true })), (2, some queue5)], waiters := [w] }
    cpu := { s.cpu with time := 1000000000 } }

/-- A launch header of R72: LEVEL, HANDLER, the rectangle, no widths, BASE 0, no constant block, and the payload at 0x100003480. -/
def header9 (level rect : Nat) : List Byte :=
  toBytes 8 (level * 2 ^ 32) ++ toBytes 8 0x1008 ++ toBytes 8 rect ++ List.replicate 24 0 ++ toBytes 8 0x100003480 ++ List.replicate 8 0

/-- A launch of gang 9 for queue 1. -/
def launch9 (header : List Byte) : Launch := { gang := 9, range := false, part := 5, header := header, block := [], queue := 1, tag := 0x55 }

/-- The device where the first command of queue 1 has launched and is not complete. -/
def benchOwed : State := { benchHost with cfe := { benchHost.cfe with queues := [(1, some { queue5 with owed := [0] })] } }

/-- The device with a launch that waits. -/
def benchLaunch (header : List Byte) : State := { benchOwed with cfe := { benchOwed.cfe with launches := [launch9 header] } }

/-- The value in the record that completes a launch. -/
def launchEnds (s : State) : Option (List (Nat × Nat)) :=
  get (exec .gangLaunch s) fun t => t.cfe.toHost.map fun p => (ofBytes p.body / 2 ^ 48 % 2 ^ 16, ofBytes (p.body.drop 8))

/-- R443: a level above 23; a rectangle of another device; a core outside the partition; a block that is not mapped. -/
theorem test_launch_rejected :
    [header9 24 0x2000000, header9 20 0x1000000, header9 20 0x2001004, header9 20 0x2000000 |>.set 50 1].map (fun h => launchEnds (benchLaunch h))
      = [some [(6, 1)], some [(6, 2)], some [(6, 3)], some [(6, 4)]] := by decide +kernel

/-- R444: a launch that is accepted, of a core of another cluster: its initial message leaves for it. -/
theorem test_launch :
    get (exec .gangLaunch (benchLaunch (header9 20 0x2000802))) (fun t => (t.cfe.gangs.map (·.id), t.cfe.toHost.length, t.cfe.launches.length, t.cpu.member)) = some ([9], 0, 0, false) := by
  decide +kernel

/-- A gang of this core, (0, 0), or of others; with a range that has work or none. -/
def gangWith (rect : Word) (ranges : List RangeRecord) : Gang := { gang9 with rect := rect, ranges := ranges }

/-- The device with a gang. -/
def benchGang (g : Gang) : State := { benchOwed with cfe := { benchOwed.cfe with gangs := [g] } }

/-- Work on dies 0 and 1. -/
def die0 (a b : Nat) : RangeRecord := { die := 0, next := BitVec.ofNat 64 a, fin := BitVec.ofNat 64 b }
def die1 (a b : Nat) : RangeRecord := { die := 1, next := BitVec.ofNat 64 a, fin := BitVec.ofNat 64 b }

/-- R435, R445, R446: a gang that ends, one whose command has its record already, one with work left; a chunk of 4 taken, and half of another die's three chunks. -/
theorem test_gangs :
    get (exec (.gangEnd 9) (benchGang (gangWith 0x2000801 []))) (fun t => (t.cfe.gangs.length, t.cfe.toHost.map fun p => (ofBytes p.body % 2 ^ 32, ofBytes (p.body.drop 8)))) = some (0, [(0x55, 9)])
      ∧ get (exec (.gangEnd 9) { benchGang (gangWith 0x2000801 []) with cfe := { (benchGang (gangWith 0x2000801 [])).cfe with queues := [(1, some queue5)] } }) (fun t => (t.cfe.gangs.length, t.cfe.toHost.length)) = some (0, 0)
      ∧ get (exec (.gangEnd 9) (benchGang (gangWith 0x2000801 [die0 1 2]))) (·.cfe.gangs.length) = some 1
      ∧ get (exec (.rangeChunkTake 0) (benchGang (gangWith 0x2000802 [die0 0 10]))) (fun t => t.cfe.gangs.map fun g => g.ranges) = some [[die0 4 10]]
      ∧ get (exec (.rangeChunkTake 0) (benchGang (gangWith 0x2000802 [die0 10 10, die1 10 20]))) (fun t => t.cfe.gangs.map fun g => g.ranges) = some [[die0 14 20, die1 10 14]] := by
  decide +kernel

/-- The device with a message of this core to a core on its way. -/
def benchComing (target : BitVec 18) : State := sendPacket benchHost (messagePacket benchHost target default 0 (corePort benchHost.cpu.coreId) (partOf benchHost) false) []

/-- R444, R445: a message in the crossbar is on its way to the core that it is for. -/
theorem test_message_comes : messageComes (benchComing benchHost.cpu.coreId) = true ∧ messageComes (benchComing (benchHost.cpu.coreId + 2)) = false ∧ messageComes benchHost = false := by
  decide +kernel

/-- R441, R442: a free slot takes the next queue's command, or the waiter whose signal came; a long wait is
reported. -/
theorem test_queues :
    get (exec .queueProgramInvoke (benchReady false)) (fun t => (t.cfe.slots.get 0).map fun r => (r.queue, r.x.get 3, r.x.get 4)) = some (some (1, 1, 6))
      ∧ get (exec .queueProgramInvoke (benchReady true)) (fun t => ((t.cfe.slots.get 0).map fun r => (r.queue, r.pc), t.cfe.waiters.length)) = some (some (2, 8), 0)
      ∧ get (exec (.parkqTimeout 2) (benchReady false)) (fun t => t.cfe.toHost.length) = some 1
      ∧ get (exec (.parkqTimeout 2) (benchReady true)) (fun t => t.cfe.toHost.length) = some 0 := by decide +kernel

/-- For LaunchAndBringUp, clause by clause. -/
theorem meets_launch :
    freeSlots (benchReady false) ≠ [] ∧ nextQueue (benchReady false) = some 1 ∧ (benchReady false).cfe.waiters.map (·.ready) = [false]
      ∧ nextQueue (benchReady true) = none ∧ (benchReady true).cfe.waiters.map (·.ready) = [true]
      ∧ (benchReady false).cfe.waiters.map (waitIsLong (benchReady false)) = [true] ∧ (benchReady true).cfe.waiters.map (waitIsLong (benchReady true)) = [false]
      ∧ headerFault (benchLaunch (header9 20 0x2000802)) (launch9 (header9 20 0x2000802)) = 0 ∧ headerFault (benchLaunch (header9 23 0x2000000)) (launch9 (header9 23 0x2000000)) = 0
      ∧ (launchBlocks (benchLaunch (header9 20 0x2000802)) (launch9 (header9 20 0x2000802))).isSome = true
      ∧ launchMissing (benchLaunch (header9 20 0x2000802)) (launch9 (header9 20 0x2000802)) = []
      ∧ launchBlocks (benchLaunch ((header9 20 0x2000802).set 50 1)) (launch9 ((header9 20 0x2000802).set 50 1)) = none
      ∧ launchMissing (benchLaunch ((header9 20 0x2000802).set 50 1)) (launch9 ((header9 20 0x2000802).set 50 1)) = []
      ∧ rectUsable 0x2000802 = true ∧ rectUsable 0x1F = false ∧ inRect 0x2000000 benchHost.cpu.coreId = true ∧ benchHost.cpu.coreId.toNat / 2 ^ 4 % 2 ^ 4 ≤ 9
      ∧ inGang (benchGang (gangWith 0x2000801 [])) (rankCore 0x2000801 0) = true ∧ rectCores 0x2000801 ≠ [] := by decide +kernel

/-- For LaunchAndBringUp: gangs, ranges and the states of a start. -/
theorem meets_bring_up :
    isOwnGang (benchGang (gangWith 0x2000801 [])) (gangWith 0x2000801 []) = false ∧ gangOf (benchGang gang9) 9 = some gang9 ∧ gangOf (benchGang gang9) 8 = none
      ∧ idleCores (benchGang (gangWith 0x2000801 [])) (gangWith 0x2000801 []) 0 ≠ []
      ∧ 0 < chunksLeft (gangWith 0x2000802 []) (die1 10 20) ∧ peatModeOf benchHost (gangWith 0x2000802 []).part ≠ 2 ∧ benchHost.cfe.bootState ≠ 0 ∧ State.reset.cfe.bootState = 0
      ∧ (get (exec .powerOn benchHost) fun t => t.cfe.bootState) = some 1 := by decide +kernel

/-! ## Further clauses of the statements -/

/-- For StoreFrame: a store that is performed keeps within the buffer, meets no line under another key id, and its bytes stand in the core's own view. -/
theorem meets_store_values :
    (benchMapped []).mem.buffer.length + (newLines (benchMapped []) (pieces (resolve (benchMapped []) .store false 0x100003480 2))).length ≤ 16
      ∧ (benchMapped []).mem.stash = [] ∧ (benchMapped []).mem.peers = []
      ∧ get (exec (.sth 7 6 0) (benchMapped [(6, 0x100003480), (7, 0x201)])) (fun t => ([0, 1, 2].map fun o => ownByte t line0 0 o, homeByte t 0 0xA03480)) = some ([1, 2, 0], 5) := by
  decide +kernel

/-- For StoreFrame: nothing of a line stands under another key id. -/
theorem meets_keyed : KeyedAs (benchMapped []) line0 0 := by
  refine ⟨fun b h => ?_, fun l h => ?_, fun p h => ?_⟩
  · exact absurd h (by simp [show (benchMapped []).mem.buffer = [] from by decide])
  · exact absurd h (by simp [show stashLine (benchMapped []) line0 = none from by decide])
  · exact absurd h (by simp [show peerLine (benchMapped []) line0 = none from by decide])

/-- For TrapReturn: a PARK that waited acts as the trap frame ends; for PartitionInstructions: PARK with OP 01 and HOW 11, and with OP 00 and a core id. -/
theorem meets_park :
    (benchTrapped 0x2000).cpu.parked = none ∧ (benchTrapped 0x2000).cpu.trapWaits = false
      ∧ get (exec .tret { benchTrapped 0x2000 with cpu := { (benchTrapped 0x2000).cpu with parkWaits := true } }) (fun t => (t.cpu.parked, t.cpu.parkWaits)) = some (some 0x2000, false)
      ∧ (0x7000000000000000 : Word).toNat / 2 ^ 60 = 7 ∧ (1 : Word).toNat < 2 ^ 62 ∧ (1 : Word).toNat % 2 ^ 18 ≠ 0
      ∧ trapAfter (bench [(6, 0x7000000000000000), (7, 1)]) [.park 6, .park 7] = [some (true, 0x1D, reasoned 1 0x7000000000000000), some (true, 0x1D, reasoned 1 1)] := by decide +kernel

/-- For PartitionEvents: an arrival while the late ring holds entries stands behind them; in minimal mode nothing happens. -/
def benchLate : State := { bench [] with cpu := { (bench []).cpu with lateRing := some default } }

theorem meets_late :
    benchLate.cpu.lateRing.isSome = true ∧ benchLate.cpu.away = false ∧ benchLate.cfe.bootState ≠ 2
      ∧ get (exec (.parkRequest { op := 2, how := 0, part := 0 }) benchLate) (fun t => (t.cpu.parked, t.cpu.latePort.length)) = some (none, 1)
      ∧ get (exec (.parkRequest { op := 2, how := 0, part := 0 }) { bench [] with cfe := { (bench []).cfe with bootState := 2 } }) (fun t => t.cpu.parked) = some none := by decide +kernel

/-- For CorrectRounding: numbers of the formats, of which 3/2 in E2M1 and the smallest FP16 subnormal; 1/3 in FP32 under each mode, by hand. -/
theorem meets_rounding :
    e2m1.decode 3 = .fin false 3 (-1) ∧ fp16.decode 0x8001 = .fin true 1 (-24) ∧ fp32.decode 0x3F800000 = .fin false 0x800000 (-23)
      ∧ ([Mode.rne, .rtz, .rdn, .rup, .rna].map fun k => fp32.div k 0x3F800000 0x40400000)
        = [{ bits := 0x3EAAAAAB, flags := 1 }, { bits := 0x3EAAAAAA, flags := 1 }, { bits := 0x3EAAAAAA, flags := 1 }, { bits := 0x3EAAAAAB, flags := 1 }, { bits := 0x3EAAAAAB, flags := 1 }]
      ∧ (convert (.int true 32) (.float fp32) .rna false 0x40200000).bits = 3 ∧ (convert (.int true 32) (.float fp32) .rne false 0x40200000).bits = 2
      ∧ (convert (.int false 32) (.float fp32) .rdn false 0xBF000000).bits = 0 ∧ (convert (.int false 32) (.float fp32) .rdn false 0xBF000000).flags = 0x10 := by decide +kernel

/-- The word of the example of stochastic rounding in R192's section, with a valid g2. -/
def benchQuantise : State :=
  let s := writeE (bench []) 3 0xC500002800022405
  { s with cpu := { s.cpu with g := [(162, 0x16E000014)] } }

/-- For VectorConversionsAndReductions: the conversion word with RM = 5 runs, to a packed stream; every bit above it is zero. -/
theorem meets_conversion :
    (conversionOf (readE benchQuantise 3)).map (fun c => (conversionReserved benchQuantise (readE benchQuantise 3) c 6 0, c.rm, c.ndst, decide ((codeType c.fmt).isSome))) = some (false, 5, true, true)
      ∧ (conversionOf (readE benchQuantise 3)).map (fun c => genTrap benchQuantise (readG benchQuantise c.gen) []) = some none
      ∧ get (exec (.vcvt 3 1 6 0 0) benchQuantise) (fun t => (readV t 3).toNat / 2 ^ 128) = some 0 := by decide +kernel

/-- For VectorMemory: a strided access whose second lane leaves local memory. -/
theorem meets_lane_trap :
    ([.vlds 3 4 6 0 0, .vsts 1 4 6 0 0] : List Instr).map
        (fun i => get (exec i (benchVec [(4, 0x4FFFFF), (6, 1)] 0x908 0 0)) fun t => (t.cpu.vflane, t.cpu.trapCause, t.cpu.trapVal))
      = [some (1, zextField causeAccess, 0x500000), some (1, zextField causeAccess, 0x500000)] := by decide +kernel

/-- For GridInstructions: a face made FIXED with the value of e0, a change to PERIODIC refused with reason 10, and GRQ's selectors 8 and 9. -/
def benchFixed (x : Word) : State := writeE (benchGrid [(6, x)]) 0 5

theorem meets_fixed :
    (geoOf (gridOf (benchGrid []) 1).desc).rule 0 ≠ 0 ∧ (readE (benchFixed 8) 0).toNat < 2 ^ (8 * (geoOf (gridOf (benchGrid []) 1).desc).size)
      ∧ periodicBad (geoOf (setAt (gridOf (benchGrid []) 1).desc 0 (withField ((gridOf (benchGrid []) 1).desc.getD 0 0) 24 3 1))) = false
      ∧ get (exec (.grbc 6 1) (benchFixed 8)) (fun t => ((geoOf (gridOf t 1).desc).rule 0, (gridOf t 1).desc.getD 8 0)) = some (1, 5)
      ∧ trapAfter (benchFixed 0) [.grbc 6 1, .grbc 7 1] = [some (true, 0x1A, reasoned 10 0), some (true, 0x1A, reasoned 10 0)]
      ∧ x5After (benchGrid [(6, 8)]) [.grq 5 6 1] = [some 0xA] ∧ trapAfter (benchGrid [(6, 9)]) [.grq 5 6 1] = [some (true, 0x1A, reasoned 10 9)] := by decide +kernel

/-- Every way of the set of `line0` holds a line with a writer. -/
def benchPinned : State :=
  let s := benchMapped []
  let full (n : Nat) : LineId := { dev := 2, line := BitVec.ofNat 37 (0x14069 + 2 ^ 20 * (n + 1)) }
  let ls := (List.range 16).map full
  { s with
    mem := { s.mem with
      l2 := s.mem.l2.set (l2Key (homeDie line0.line) line0.line) { ways := (List.range 16).map fun n => (n, some (full n)), plru := 0 }
      dir := ls.map fun l => (l.line.toNat, { writers := [{ core := 0x801, words := 1, release := 0 }], sharers := [], overflow := false }) } }

/-- Another stash of the core's die asks for a line of another device that the die holds. -/
def benchCopy : State :=
  let s := benchMapped []
  { s with mem := { s.mem with peers := [{ line := lineFar, data := [], poison := 0, marks := [], sharers := [], key := 3, use := .copy }] } }

/-- For MemoryEvents: a fill that finds no way free waits; a fill behind the own die's copy is recorded there. -/
theorem meets_fills :
    l2Reach benchPinned (homeDie line0.line) line0 false = none
      ∧ get (exec (.fill line0 { holder := .peer 4 }) benchPinned) (fun t => t.mem.kept.length) = some 1
      ∧ isBehindOwn benchCopy lineFar (.stash 0x801) = true ∧ isHome benchCopy lineFar = false ∧ (peerLine benchCopy lineFar).map (·.key) = some 3
      ∧ get (exec (.fill lineFar { holder := .stash 0x801, key := 3 }) benchCopy) (fun t => t.mem.peers.map (·.sharers)) = some [[.stash 0x801]] := by decide +kernel

/-- For AtomicInstructions: CAS2's causes. -/
theorem meets_cas2 :
    trapAfter (benchMapped [(6, 0x80000000000000), (8, 0x100), (10, 0x100003488)]) [.cas2 12 6 14 0, .cas2 12 8 14 0, .cas2 12 10 14 0]
      = [some (true, zextField causeAddr, 0x80000000000000), some (true, zextField causeAccess, 0x100), some (true, zextField causeMisalign, 0x100003488)] := by decide +kernel

/-- In minimal mode. -/
def benchMinimal : State := { benchDev1 with cfe := { benchDev1.cfe with bootState := 2 } }

/-- For FabricEvents and HostRequests: what minimal mode and an earlier write of the host keep back. -/
theorem meets_held_back :
    benchMinimal.cfe.bootState = 2 ∧ get (exec (.ctrl (.time 4000)) benchMinimal) (·.cpu.time) = some 3000
      ∧ get (exec (.registerWrite 0x10 7) { benchHost with mem := { benchHost.mem with kept := [.hostWrite 0 0xA03480 [] 0] } }) (fun t => (t.cfe.cfewd, t.mem.kept.length)) = some (benchHost.cfe.cfewd, 2) := by
  decide +kernel

end Sys2Proof.Tests
end

section
/-! SUPPORT. The values that division, the shifts and the operations on bits compute, put as the numbers and bits
of the spec (R75 to R79), and the three statements about these instructions. -/

namespace Sys2Proof.Machine

/-! ## Division (R75) -/

theorem toInt_neg_one_iff {y : Word} : y.toInt = -1 ↔ y = -1 :=
  ⟨fun h => BitVec.eq_of_toInt_eq h, fun h => h ▸ rfl⟩

theorem toInt_minSigned_iff {x : Word} : x.toInt = -2 ^ 63 ↔ x = minSigned :=
  ⟨fun h => BitVec.eq_of_toInt_eq h, fun h => h ▸ rfl⟩

/-- A division by zero saturates toward the sign of the dividend. -/
theorem divS_zero (x : Word) :
    divS x 0 = if x.toInt > 0 then 0x7FFFFFFFFFFFFFFF else if x.toInt < 0 then 0x8000000000000000 else 0 := by
  have hzero : x = 0 ↔ x.toInt = 0 := ⟨fun h => h ▸ rfl, fun h => BitVec.eq_of_toInt_eq h⟩
  have hneg : x.msb = true ↔ x.toInt < 0 := by rw [BitVec.msb_eq_toInt, decide_eq_true_iff]
  simp only [divS, if_true, hzero, hneg, minSigned, maxSigned, gt_iff_lt]
  rcases Int.lt_trichotomy x.toInt 0 with h | h | h
  · rw [if_neg (Int.ne_of_lt h), if_pos h, if_neg (Int.lt_asymm h), if_pos h]
  · rw [if_pos h, h, if_neg (Int.lt_irrefl 0), if_neg (Int.lt_irrefl 0)]
  · rw [if_neg (Int.ne_of_gt h), if_neg (Int.lt_asymm h), if_pos h]

/-- The truncated quotient, saturated where it does not fit (R75). -/
theorem divS_of_ne_zero (x : Word) {y : Word} (hy : y ≠ 0) :
    divS x y = if x.toInt = -2 ^ 63 ∧ y.toInt = -1 then 0x7FFFFFFFFFFFFFFF else BitVec.ofInt 64 (x.toInt.tdiv y.toInt) := by
  simp only [divS, if_neg hy, toInt_minSigned_iff, toInt_neg_one_iff, maxSigned, Bool.and_eq_true, decide_eq_true_eq]

theorem divU_zero (x : Word) : divU x 0 = 0xFFFFFFFFFFFFFFFF := rfl

theorem divU_of_ne_zero (x : Word) {y : Word} (hy : y ≠ 0) : divU x y = BitVec.ofNat 64 (x.toNat / y.toNat) := by
  rw [divU, if_neg hy, ← BitVec.toNat_udiv, BitVec.ofNat_toNat, BitVec.setWidth_eq]

theorem remS_zero (x : Word) : remS x 0 = x := rfl

theorem remU_zero (x : Word) : remU x 0 = x := rfl

/-- The remainder belongs to the quotient truncated toward zero; it is 0 where the quotient overflows (R75). -/
theorem remS_of_ne_zero (x : Word) {y : Word} (hy : y ≠ 0) :
    remS x y = if x.toInt = -2 ^ 63 ∧ y.toInt = -1 then 0 else BitVec.ofInt 64 (x.toInt - y.toInt * x.toInt.tdiv y.toInt) := by
  rw [remS, if_neg hy, Int.tmod_def]
  split
  next h =>
    obtain ⟨hx, hy'⟩ := h
    rw [hx, hy']
    rfl
  next => rfl

theorem remU_of_ne_zero (x : Word) {y : Word} (hy : y ≠ 0) :
    remU x y = BitVec.ofNat 64 (x.toNat - y.toNat * (x.toNat / y.toNat)) := by
  rw [remU, if_neg hy, ← Nat.mod_eq_sub_mul_div, ← BitVec.toNat_umod, BitVec.ofNat_toNat, BitVec.setWidth_eq]

/-- The row of a zero divisor, and the others. -/
theorem eq_ite_zero_divisor {f : Word → Word} {y u v : Word} (hz : f 0 = u) (hn : y ≠ 0 → f y = v) : f y = if y = 0 then u else v := by
  split
  next h => rw [h, hz]
  next h => exact hn h

/-! ## Shifts (R76) -/

/-- A register's amount is its bits [5:0]. -/
theorem amount_eq_mod (y : Word) : amount y = y.toNat % 64 := by simp [amount, field]

/-- An immediate's amount is its six bits. -/
theorem amount_zextField (k : BitVec 6) : amount (zextField k) = k.toNat := by
  have := k.isLt
  simp only [amount_eq_mod, zextField, BitVec.toNat_setWidth]
  omega

theorem shiftLeft_eq_ofNat (x : Word) (n : Nat) : x <<< n = BitVec.ofNat 64 (x.toNat * 2 ^ n) := by
  apply BitVec.eq_of_toNat_eq
  rw [BitVec.toNat_shiftLeft, BitVec.toNat_ofNat, Nat.shiftLeft_eq]

theorem shiftL_eq_mul (x y : Word) : shiftL x y = BitVec.ofNat 64 (x.toNat * 2 ^ amount y) := shiftLeft_eq_ofNat x (amount y)

theorem shiftR_eq_div (x y : Word) : shiftR x y = BitVec.ofNat 64 (x.toNat / 2 ^ amount y) := by
  rw [← Nat.shiftRight_eq_div_pow, ← BitVec.toNat_ushiftRight, BitVec.ofNat_toNat, BitVec.setWidth_eq, shiftR]

/-- A shift that fills with copies of bit 63 is the floor of a division. -/
theorem shiftA_eq_div (x y : Word) : shiftA x y = BitVec.ofInt 64 (x.toInt / 2 ^ amount y) := by
  have hpow : (2 : Int) ^ amount y = ((2 ^ amount y : Nat) : Int) := (Int.natCast_pow 2 (amount y)).symm
  rw [hpow, ← Int.shiftRight_eq_div_pow, ← BitVec.toInt_sshiftRight, BitVec.ofInt_toInt, shiftA]

theorem rotateR_eq_or (x y : Word) :
    rotateR x y = (BitVec.ofNat 64 (x.toNat / 2 ^ amount y) ||| BitVec.ofNat 64 (x.toNat * 2 ^ (64 - amount y))) := by
  rw [← shiftR_eq_div, ← shiftLeft_eq_ofNat, rotateR, shiftR]

/-! ## Counts of bits (R77) -/

/-- The place of the highest set bit. -/
theorem log2_of_highest {x n : Nat} (hn : x.testBit n = true) (hi : ∀ m, n < m → x.testBit m = false) : Nat.log2 x = n := by
  have hlow : 2 ^ n ≤ x := Nat.ge_two_pow_of_testBit hn
  have hhigh : x < 2 ^ (n + 1) := Nat.lt_pow_two_of_testBit x fun m hm => hi m hm
  exact (Nat.log2_eq_iff (Nat.ne_zero_of_lt (Nat.lt_of_lt_of_le (Nat.two_pow_pos n) hlow))).2 ⟨hlow, hhigh⟩

theorem leadingZeros_of_highest {x : Word} {n : Nat} (hn : x.getLsbD n = true) (hi : ∀ m, n < m → x.getLsbD m = false) :
    leadingZeros x = BitVec.ofNat 64 (63 - n) := by
  have hx : x ≠ 0 := by rintro rfl; simp at hn
  rw [leadingZeros, if_neg hx, log2_of_highest hn hi, word]

theorem lowestBit_succ (x k i : Nat) : lowestBit x (k + 1) i = if x.testBit i then i else lowestBit x k (i + 1) := by
  simp [lowestBit, Nat.testBit_eq_decide_div_mod_eq]

theorem lowestBit_zero (k i : Nat) : lowestBit 0 k i = i + k := by
  induction k generalizing i with
  | zero => rfl
  | succ k ih => rw [lowestBit_succ, Nat.zero_testBit, if_neg Bool.false_ne_true, ih]; omega

/-- A search that begins at `i`, at or below the lowest set bit `n`, and reaches it, ends there. -/
theorem lowestBit_of_lowest {x n : Nat} (hn : x.testBit n = true) (lo : ∀ m, m < n → x.testBit m = false) {k i : Nat}
    (hi : i ≤ n) (hk : n < i + k) : lowestBit x k i = n := by
  induction k generalizing i with
  | zero => omega
  | succ k ih =>
    rw [lowestBit_succ]
    rcases Nat.eq_or_lt_of_le hi with rfl | h
    · rw [if_pos hn]
    · rw [lo i h, if_neg Bool.false_ne_true]
      exact ih (by omega) (by omega)

theorem trailingZeros_of_lowest {x : Word} {n : Nat} (h64 : n < 64) (hn : x.getLsbD n = true) (lo : ∀ m, m < n → x.getLsbD m = false) :
    trailingZeros x = BitVec.ofNat 64 n := by
  rw [trailingZeros, lowestBit_of_lowest hn lo (Nat.zero_le n) (by omega), word]

theorem trailingZeros_zero : trailingZeros 0 = 64 := by
  change word (lowestBit 0 64 0) = 64
  rw [lowestBit_zero]
  rfl

theorem popCount_eq_countP (x n : Nat) : popCount x n = (List.range n).countP x.testBit := by
  induction n with
  | zero => rfl
  | succ n ih =>
    have hbit : x / 2 ^ n % 2 = if x.testBit n then 1 else 0 := by
      rw [← Nat.toNat_testBit]
      cases x.testBit n <;> rfl
    rw [popCount, ih, hbit, List.range_succ, List.countP_append, List.countP_singleton, Nat.add_comm]

theorem setBits_eq_countP (x : Word) : setBits x = BitVec.ofNat 64 ((List.range 64).countP fun n => x.getLsbD n) := by
  rw [setBits, popCount_eq_countP, word]
  rfl

/-! ## Fields of bits (R78) -/

theorem field_position (desc : Word) : field desc 0 6 = desc.toNat % 64 := by simp [field]

theorem field_width (desc : Word) : field desc 8 6 = desc.toNat / 256 % 64 := by simp [field]

theorem getLsbD_fieldMask (desc : Word) {n : Nat} (hn : n < 64) : (fieldMask desc).getLsbD n = decide (n ≤ field desc 8 6) := by
  simp only [fieldMask, word, BitVec.getLsbD_ofNat, Nat.testBit_two_pow_sub_one, hn, Nat.lt_succ_iff, decide_true, Bool.true_and]

/-- The field as BEXT takes it, before it is extended. -/
theorem getLsbD_maskedField (x desc : Word) {n : Nat} (hn : n < 64) :
    ((x >>> field desc 0 6) &&& fieldMask desc).getLsbD n = (decide (n ≤ field desc 8 6) && x.getLsbD (field desc 0 6 + n)) := by
  rw [BitVec.getLsbD_and, BitVec.getLsbD_ushiftRight, getLsbD_fieldMask desc hn, Bool.and_comm]

/-- BEXT bit by bit: the field, and above it zeros or copies of its highest bit. -/
theorem getLsbD_extractField (x desc : Word) {n : Nat} (hn : n < 64) :
    (extractField x desc).getLsbD n =
      if n ≤ field desc 8 6 then x.getLsbD (field desc 0 6 + n) else (desc.getLsbD 16 && x.getLsbD (field desc 0 6 + field desc 8 6)) := by
  have hw : field desc 8 6 < 64 := by rw [field_width]; omega
  have hsign : bit ((x >>> field desc 0 6) &&& fieldMask desc) (field desc 8 6) = x.getLsbD (field desc 0 6 + field desc 8 6) := by
    rw [bit, getLsbD_maskedField x desc hw, decide_eq_true (Nat.le_refl _), Bool.true_and]
  have hmask := getLsbD_maskedField x desc hn
  simp only [extractField, hsign]
  by_cases hin : n ≤ field desc 8 6
  · split <;> simp [-BitVec.getLsbD_eq_getElem, BitVec.getLsbD_or, BitVec.getLsbD_not, getLsbD_fieldMask desc hn, hmask, hin]
  · have hnarrow : field desc 8 6 < 63 := by omega
    simp only [hnarrow, bit, decide_true, Bool.and_true, if_neg hin]
    split
    next hs => simp [-BitVec.getLsbD_eq_getElem, BitVec.getLsbD_or, BitVec.getLsbD_not, getLsbD_fieldMask desc hn, hin, hn, hs]
    next hs => rw [hmask, decide_eq_false hin, Bool.false_and, eq_false_of_ne_true hs]

/-- BINS bit by bit: the field at its position, and the old value elsewhere. -/
theorem getLsbD_insertField (old x desc : Word) {n : Nat} (hn : n < 64) :
    (insertField old x desc).getLsbD n =
      if field desc 0 6 ≤ n ∧ n ≤ field desc 0 6 + field desc 8 6 then x.getLsbD (n - field desc 0 6) else old.getLsbD n := by
  have hmask := getLsbD_fieldMask desc (show n - field desc 0 6 < 64 by omega)
  simp only [insertField, BitVec.getLsbD_or, BitVec.getLsbD_and, BitVec.getLsbD_not, BitVec.getLsbD_shiftLeft, hmask, hn]
  by_cases hp : field desc 0 6 ≤ n
  · have hle : n - field desc 0 6 ≤ field desc 8 6 ↔ n ≤ field desc 0 6 + field desc 8 6 := by omega
    by_cases hw : n ≤ field desc 0 6 + field desc 8 6 <;> simp [hp, hw, hle, Nat.not_lt.2 hp]
  · simp [hp, Nat.lt_of_not_le hp]

/-! ## What each instruction writes -/

theorem Writes.congr {s : State} {i : Instr} {d : Reg} {v w : Word} {n : Nat} (h : Writes s i d w n) (hv : w = v) : Writes s i d v n := hv ▸ h

section
variable (s : State) (d a b : Reg) (k : BitVec 6)

theorem div_writes : Writes s (.div d a b) d (divS (readX s a) (readX s b)) 4 := by apply writes_of <;> rfl
theorem divu_writes : Writes s (.divu d a b) d (divU (readX s a) (readX s b)) 4 := by apply writes_of <;> rfl
theorem rem_writes : Writes s (.rem d a b) d (remS (readX s a) (readX s b)) 4 := by apply writes_of <;> rfl
theorem remu_writes : Writes s (.remu d a b) d (remU (readX s a) (readX s b)) 4 := by apply writes_of <;> rfl
theorem shl_writes : Writes s (.shl d a b) d (shiftL (readX s a) (readX s b)) 4 := by apply writes_of <;> rfl
theorem shr_writes : Writes s (.shr d a b) d (shiftR (readX s a) (readX s b)) 4 := by apply writes_of <;> rfl
theorem sra_writes : Writes s (.sra d a b) d (shiftA (readX s a) (readX s b)) 4 := by apply writes_of <;> rfl
theorem rot_writes : Writes s (.rot d a b) d (rotateR (readX s a) (readX s b)) 4 := by apply writes_of <;> rfl
theorem shli_writes : Writes s (.shli d a k) d (shiftL (readX s a) (zextField k)) 4 := by apply writes_of <;> rfl
theorem shri_writes : Writes s (.shri d a k) d (shiftR (readX s a) (zextField k)) 4 := by apply writes_of <;> rfl
theorem srai_writes : Writes s (.srai d a k) d (shiftA (readX s a) (zextField k)) 4 := by apply writes_of <;> rfl
theorem roti_writes : Writes s (.roti d a k) d (rotateR (readX s a) (zextField k)) 4 := by apply writes_of <;> rfl
theorem clz_writes : Writes s (.clz d a) d (leadingZeros (readX s a)) 4 := by apply writes_of <;> rfl
theorem ctz_writes : Writes s (.ctz d a) d (trailingZeros (readX s a)) 4 := by apply writes_of <;> rfl
theorem popc_writes : Writes s (.popc d a) d (setBits (readX s a)) 4 := by apply writes_of <;> rfl
theorem sel_writes : Writes s (.sel d a b) d (if readX s d ≠ 0 then readX s a else readX s b) 4 := by apply writes_of <;> rfl
theorem bext_writes : Writes s (.bext d a b) d (extractField (readX s a) (readX s b)) 4 := by apply writes_of <;> rfl
theorem bins_writes : Writes s (.bins d a b) d (insertField (readX s d) (readX s a) (readX s b)) 4 := by apply writes_of <;> rfl

end

end Sys2Proof.Machine

section
open Sys2Proof Sys2Proof.Machine

/-! ## The statements -/

/-- Settles O13, column by column, with the row of a zero divisor apart from the others. -/
theorem divisionTable : Obligations.DivisionTable := by
  intro s d a b x y
  refine ⟨(div_writes s d a b).congr ?_, (divu_writes s d a b).congr ?_, (rem_writes s d a b).congr ?_, (remu_writes s d a b).congr ?_⟩
  · exact eq_ite_zero_divisor (divS_zero x) (divS_of_ne_zero x)
  · exact eq_ite_zero_divisor (divU_zero x) (divU_of_ne_zero x)
  · exact eq_ite_zero_divisor (remS_zero x) (remS_of_ne_zero x)
  · exact eq_ite_zero_divisor (remU_zero x) (remU_of_ne_zero x)

/-- Settles O14: each shift as arithmetic on its amount, which is bits [5:0] of the register or the field. -/
theorem shifts : Obligations.Shifts := by
  intro s d a b k x n rot
  have hn : amount (readX s b) = n := amount_eq_mod _
  have hk : amount (zextField k) = k.toNat := amount_zextField k
  refine ⟨(shl_writes s d a b).congr ?_, (shr_writes s d a b).congr ?_, (sra_writes s d a b).congr ?_, (rot_writes s d a b).congr ?_,
    (shli_writes s d a k).congr ?_, (shri_writes s d a k).congr ?_, (srai_writes s d a k).congr ?_, (roti_writes s d a k).congr ?_⟩
  · rw [shiftL_eq_mul, hn]
  · rw [shiftR_eq_div, hn]
  · rw [shiftA_eq_div, hn]
  · rw [rotateR_eq_or, hn]
  · rw [shiftL_eq_mul, hk]
  · rw [shiftR_eq_div, hk]
  · rw [shiftA_eq_div, hk]
  · rw [rotateR_eq_or, hk]

/-- Settles O15: the counts by the place of the highest or lowest set bit, the fields bit by bit. -/
theorem bitOperations : Obligations.BitOperations := by
  refine ⟨fun s d a => ⟨fun hx => ⟨?_, ?_⟩, fun n _ hn hi => ?_, fun n h64 hn lo => ?_, ?_⟩, fun s d a b => ⟨?_, ?_⟩, fun s d a b => ?_⟩
  · exact (clz_writes s d a).congr (if_pos hx)
  · exact (ctz_writes s d a).congr ((congrArg trailingZeros hx).trans trailingZeros_zero)
  · exact (clz_writes s d a).congr (leadingZeros_of_highest hn hi)
  · exact (ctz_writes s d a).congr (trailingZeros_of_lowest h64 hn lo)
  · exact (popc_writes s d a).congr (setBits_eq_countP _)
  · exact sel_writes s d a b
  · exact sel_writes s 0 a b
  · refine ⟨_, _, bext_writes s d a b, bins_writes s d a b, fun n hn => ?_, fun n hn => ?_⟩
    · simp only [getLsbD_extractField _ _ hn, field_position, field_width, Nat.lt_succ_iff, ← Nat.add_assoc, Nat.add_sub_cancel]
    · simp only [getLsbD_insertField _ _ _ hn, field_position, field_width, Nat.lt_succ_iff, ← Nat.add_assoc]

end
end
